-- ==== Sys2Proof/Word.lean ====
section
/-! DEFINITION. The word types of the 2410: what the spec carries in fixed-width fields. -/

namespace Sys2Proof

/-- A byte of a packet, a frame or a response; also a tag (spec/00, Numbers and ranges). -/
abbrev Byte := BitVec 8

/-- A frame sequence number, 0 to 2^40 − 1, compared as an ordinary whole number (spec/00; R75). -/
abbrev Seq := BitVec 40

/-- A palette serial, 0 to 65535, counted modulo 65536 (spec/00). -/
abbrev Serial := BitVec 16

/-- The value of a shared attribute, 0 to 2^32 − 1 (R125). -/
abbrev Value := BitVec 32

/-- A palette entry: red in bits 29 to 20, green in 19 to 10, blue in 9 to 0 (R102, R175). -/
abbrev Color := BitVec 30

/-- A station number, 0 to 31 (R2). -/
abbrev Station := Fin 32

/-- A set of stations: station n is in the set when bit n is set (section 11, "set of 32 stations"). -/
abbrev StationSet := BitVec 32

end Sys2Proof
end

