-- ==== Sys2Proof/Config.lean ====
section
/-! DEFINITION. What is fixed for the part: its intervals, in periods of the 50 MHz reference clock, and the
free values, of which nothing can be proved but that they have a value. -/

namespace Sys2Proof.Config

/-- One microsecond in clock periods of 20 ns (10.5: CLKIN is 50 MHz). -/
def microsecond : Nat := 50

/-- The rearm interval, 400 ns (R16). -/
def rearmInterval : Nat := 20

/-- The LIF's guard, 1 µs (R28). -/
def guard : Nat := microsecond

/-- The reply window and the turnaround window, 6 µs (R42, R45). -/
def window : Nat := 6 * microsecond

/-- The bus-hold interval, 1 ms (R50). -/
def busHold : Nat := 1000 * microsecond

/-- The snapshot wait, 50 ms (R114). -/
def snapshotWait : Nat := 50000 * microsecond

/-- The request timeout, 20 ms (R132). -/
def requestTimeout : Nat := 20000 * microsecond

/-- The FRAME qualification time and the PRESENT high time, 2 µs (R171, R173). -/
def frameConfirm : Nat := 2 * microsecond

/-- The spacing window, 4 ms (R171). -/
def spacing : Nat := 4000 * microsecond

/-- The claim delay, 160 µs + 4 µs × station number (R35). -/
def claimDelay (n : Station) : Nat := (160 + 4 * n.val) * microsecond

/-- The founding silence, 2,000 µs + 4 µs × station number (R36). -/
def foundingSilence (n : Station) : Nat := (2000 + 4 * n.val) * microsecond

/-- FREE VALUE (log 5). R166: events that different units raise at the same moment may be appended in either
order. Whether the first unit's event goes first at the k-th such choice. -/
opaque eventOrder : Nat → Bool

/-- FREE VALUE (log 6). R175: a lookup of an index being written returns the old entry whole or the new entry
whole. Whether the k-th such lookup returns the new one. -/
opaque lookupRace : Nat → Bool

/-- FREE VALUE (log 7). The count byte of a TAKE RESULT response for a WRITE, which has no count (R134, R178). -/
opaque writeCount : Nat → Byte

end Sys2Proof.Config
end

