-- ==== Sys2Proof/Syntax.lean ====
section
/-! DEFINITION. The commands of the block: one constructor of `Instr` per row of spec/opcode_table.json, with the
packets, error classes and operand forms the rows carry. -/

namespace Sys2Proof

/-- The destination field of a packet: a station number or ALL (R18, R20). -/
inductive Dest where
  | station (n : Station)
  | all
deriving DecidableEq, Repr

/-- The attempt field of a HANDOVER packet, 1 or 2 (R18). -/
inductive Attempt where
  | first
  | second
deriving DecidableEq, Repr

/-- The palette states, in the order of their codes (chapter 6; section 11.2). -/
inductive PaletteState where
  | normal
  | resync
  | receiving
deriving DecidableEq, Repr

/-- The three receive error classes that leave a packet readable but end its judgement (R23). -/
inductive Flaw where
  | lengthInvalid
  | endError
  | payloadFailed
deriving DecidableEq, Repr

/-- The sets of receive error classes that make a packet unreadable (R23); `corrected` says that HEADER CORRECTED
stands beside the class. -/
inductive Unreadable where
  | startError
  | headerFailed
  | unknownKind (corrected : Bool)
  | badDestination (corrected : Bool)
deriving DecidableEq, Repr

/-- A set of receive error classes as one packet can carry it (R23). -/
inductive Classes where
  | unreadable (u : Unreadable)
  | readable (corrected : Bool) (flaw : Option Flaw)
deriving DecidableEq, Repr

/-- What every readable packet's header gives: source, destination and tag, as corrected, and whether the header
check corrected a bit (R18, R19). -/
structure Head where
  source : Station
  dest : Dest
  tag : Byte
  corrected : Bool
deriving DecidableEq, Repr

/-- The payload of a readable long packet: good, or failed for one of three reasons (R23). -/
inductive Payload (α : Type) where
  | good (a : α)
  | failed (f : Flaw)
deriving DecidableEq, Repr

/-- The payload of a STATUS packet (R78; section 11.2). -/
structure StatusBody where
  l : Seq
  r : Seq
  c : Seq
  participant : Bool
  palette : PaletteState
  paletteCredit : Byte
  messageCredit : Byte
  e : Serial
deriving DecidableEq, Repr

/-- The payload of a COMMIT packet: N and the carried set (R86, R87). -/
structure CommitBody where
  n : Seq
  inStep : StationSet
deriving DecidableEq, Repr

/-- A palette update record with its serial, as PALETTE and REPLAY packets carry it and the pending store holds it
(R107). Its count is the number of its entries. -/
structure UpdateRecord where
  serial : Serial
  effective : Seq
  start : BitVec 16
  entries : List Color
deriving DecidableEq, Repr

/-- The leading fields of SNAPSHOT part 0: S, E0 and the replay count n (R118). -/
structure SnapshotLead where
  s : Seq
  e0 : Serial
  n : Byte
deriving DecidableEq, Repr

/-- The payload of a SNAPSHOT packet: part 0 has the lead, every part has 64 entries (R118). -/
structure SnapshotBody where
  lead : Option SnapshotLead
  entries : List Color
deriving DecidableEq, Repr

/-- The results an ACK packet carries (section 11.2); a code above 08h is `other` (R176). -/
inductive AckResult where
  | ok
  | accepted
  | refusedBusy
  | refusedRange
  | refusedReadOnly
  | refusedState
  | streamClosed
  | queueFull
  | payloadFailed
  | other
deriving DecidableEq, Repr

/-- A readable packet as the LIF hands it to the units: the sixteen kinds with their named fields (R24; section 11.2).
A packet to be sent is one with no error class. -/
inductive Packet where
  | handover (h : Head) (attempt : Attempt) (view : StationSet) (flaw : Option Flaw)
  | claim (h : Head) (flaw : Option Flaw)
  | invite (h : Head) (flaw : Option Flaw)
  | join (h : Head) (participant : Bool) (flaw : Option Flaw)
  | leave (h : Head) (flaw : Option Flaw)
  | status (h : Head) (p : Payload StatusBody)
  | commit (h : Head) (p : Payload CommitBody)
  | palette (h : Head) (p : Payload UpdateRecord)
  | snapshotRequest (h : Head) (flaw : Option Flaw)
  | snapshot (h : Head) (part : Byte) (p : Payload SnapshotBody)
  | replay (h : Head) (p : Payload UpdateRecord)
  | message (h : Head) (ack : Bool) (stream : BitVec 2) (p : Payload (List Byte))
  | read (h : Head) (start count : Byte) (flaw : Option Flaw)
  | write (h : Head) (index : Byte) (value : Value) (flaw : Option Flaw)
  | readReturn (h : Head) (start count : Byte) (p : Payload (List Value))
  | ack (h : Head) (result : AckResult) (headerCorrected : Bool) (flaw : Option Flaw)
deriving DecidableEq, Repr

/-- A packet as it is heard: unreadable, with its classes alone, or readable (R24). -/
inductive Heard where
  | unreadable (u : Unreadable)
  | readable (p : Packet)
deriving DecidableEq, Repr

/-- The two kinds of contention (R30). -/
inductive DriveFault where
  | driveHigh
  | driveLow
deriving DecidableEq, Repr

/-- The levels of the five station-number straps when a reset ends, true for high (R2). -/
structure Straps where
  stn0 : Bool
  stn1 : Bool
  stn2 : Bool
  stn3 : Bool
  stn4 : Bool
deriving DecidableEq, Repr

/-- The commands: one constructor per row of spec/opcode_table.json, in the table's order. The argument bytes of the
control-port commands are those of section 11.4; the rows of a packet heard carry what R24 hands to the units. -/
inductive Instr where
  | powerOnReset
  | powerOnResetEnd (straps : Straps)
  | pinResetAssert
  | pinResetRelease (straps : Straps)
  | transactionOpen
  | refusedFormat (bits : List Bool)
  | noOperation
  | readState
  | readView
  | readReadiness (number : Byte)
  | takeEvent
  | configure (participant policy deadline budget streams recovery : Byte)
  | go
  | leave
  | restart
  | acknowledgeFault
  | ready (n : Seq)
  | submitPalette (effective : Seq) (start : BitVec 16) (words : List Value)
  | readPalette (start : BitVec 16) (count : Byte)
  | sendMessage (dest stream ack cls : Byte) (payload : List Byte)
  | takeMessage
  | readAttribute (start count : Byte)
  | writeAttribute (index : Byte) (value : Value)
  | remoteRead (target start count : Byte)
  | remoteWrite (target index : Byte) (value : Value)
  | takeResult (tag : Byte)
  | activity
  | receiverRearm (judged : Option Heard)
  | unreadablePacketHeard (u : Unreadable)
  | lifBeginDriving
  | packetSent
  | contention (kind : DriveFault)
  | handoverHeard (h : Head) (attempt : Attempt) (view : StationSet) (flaw : Option Flaw)
  | claimHeard (h : Head) (flaw : Option Flaw)
  | inviteHeard (h : Head) (flaw : Option Flaw)
  | joinHeard (h : Head) (participant : Bool) (flaw : Option Flaw)
  | leaveHeard (h : Head) (flaw : Option Flaw)
  | statusHeard (h : Head) (p : Payload StatusBody)
  | commitHeard (h : Head) (p : Payload CommitBody)
  | paletteHeard (h : Head) (p : Payload UpdateRecord)
  | snapshotRequestHeard (h : Head) (flaw : Option Flaw)
  | snapshotHeard (h : Head) (part : Byte) (p : Payload SnapshotBody)
  | replayHeard (h : Head) (p : Payload UpdateRecord)
  | messageHeard (h : Head) (ack : Bool) (stream : BitVec 2) (p : Payload (List Byte))
  | readHeard (h : Head) (start count : Byte) (flaw : Option Flaw)
  | writeHeard (h : Head) (index : Byte) (value : Value) (flaw : Option Flaw)
  | readReturnHeard (h : Head) (start count : Byte) (p : Payload (List Value))
  | ackHeard (h : Head) (result : AckResult) (headerCorrected : Bool) (flaw : Option Flaw)
  | replyWindowEnd
  | turnaroundWindowEnd
  | claimDelayExpiry
  | foundingSilenceExpiry
  | busHoldIntervalExpiry
  | snapshotWaitExpiry
  | requestTimeout (tag : Byte)
  | frameLowQualified
  | frameRisingEdge
  | frameGlitch
  | framePulse
  | spacingWindowClose
  | applicationComplete
  | presentPulseEnd
  | paletteLookup (index : BitVec 9)
  | frameFallingEdge
deriving DecidableEq, Repr

end Sys2Proof
end

