-- ==== Sys2Proof/Machine/State.lean ====
section
/-! DEFINITION. The state of one 2410, unit by unit (spec/00, Block Diagram), as plain data, and the state at the end
of a reset. -/

namespace Sys2Proof.Machine

/-- The spec names no condition on which the part stops, so a step never answers a fault: the type has no
constructor. Nobody raises one (safe: nothing is hidden behind it). -/
inductive Fault where
deriving DecidableEq, Repr

/-- Why a command is not run. -/
inductive Refusal where
  /-- A row of the table with no meaning yet, refused by `exec`'s arm (safe). No arm is left so. -/
  | notModelled (mnemonic : String)
  /-- Raised by `execRefusedFormat` on bits that form a complete frame: such a frame is the row of its command, not
  REFUSED_FORMAT (R158), so the term describes no event (safe; log 13). -/
  | completeFrame
deriving DecidableEq, Repr

/-- A timer: none while stopped, else the clock periods of 20 ns it has run, held at its limit (log 1). -/
abbrev Timer := Option Nat

/-- A table indexed by a small number, kept as pairs with strictly rising indices; an index not listed holds nothing
(spec/00, Collections). -/
abbrev Table (α : Type) := List (Nat × α)

/-- The live bank's contents: entries by index, strictly rising, none of them the zero entry, which is what an index not
listed reads as (R102: every entry is 0 after a power-on or pin reset). -/
abbrev Memory := Table Color

/-- The life-cycle states, in the order of their codes (chapter 1; R178). -/
inductive Life where
  | unconfigured
  | standby
  | joinPending
  | member
  | leaving
  | halted
deriving DecidableEq, Repr

/-- The possession states, in the order of their codes (chapter 3; R178). -/
inductive Possession where
  | quiet
  | listening
  | possessing
  | awaitingReply
  | handingOver
  | replying
  | busHold
deriving DecidableEq, Repr

/-- The agreement states, in the order of their codes (chapter 5; R178). -/
inductive Agreement where
  | outside
  | inStep
  | lagging
deriving DecidableEq, Repr

/-- The agreement policy (R3). -/
inductive Policy where
  | hold
  | dropLate
deriving DecidableEq, Repr

/-- The recovery mode (R3). -/
inductive Recovery where
  | automatic
  | acknowledged
deriving DecidableEq, Repr

/-- The configuration record (R3, R4); the hold budget is its number, 6 for the default mark. -/
structure ConfigRecord where
  participant : Bool
  policy : Policy
  deadline : Nat
  holdBudget : Nat
  openStreams : BitVec 4
  recovery : Recovery
deriving DecidableEq, Repr

/-- The receiver's states (chapter 2, The Receiver). -/
inductive Receiver where
  | off
  | armed
  | delimiter
  | header
  | payload
  | fin
  | draining
deriving DecidableEq, Repr

/-- What the scheduler granted, or the reply or CLAIM outside it: the origin of a packet handed to the LIF (R39, R51). -/
inductive TxClass where
  | claim
  | status
  | commit
  | answer
  | readReturn
  | snapshotRequest
  | retry
  | priority
  | palette
  | request
  | bulk
  | invite
  | handover
  | leave
  | leaveHandover
  | reply
deriving DecidableEq, Repr

/-- A packet handed to the LIF with its origin. -/
structure Tx where
  cls : TxClass
  packet : Packet
deriving DecidableEq, Repr

/-- The LIF's driver: released, holding a packet until the guard has passed, or driving it (R28, R32). -/
inductive Driver where
  | released
  | waiting (tx : Tx)
  | driving (tx : Tx)
deriving DecidableEq, Repr

/-- The Line Interface (chapter 2). -/
structure Lif where
  receiver : Receiver
  lineBusy : Bool
  lastError : Option Classes
  driver : Driver
  released : Timer
deriving DecidableEq, Repr

/-- Which unit waits in the reply slot, and for which record (R42). -/
inductive SlotOwner where
  | invite
  | snapshotRequest
  | request (tag : Byte)
  | message
deriving DecidableEq, Repr

/-- An open reply slot: the addressed station, the tag the reply must echo, the waiting unit, whether activity has begun
inside the window, and the reply-slot timer (R42). -/
structure Slot where
  target : Station
  tag : Byte
  owner : SlotOwner
  activity : Bool
  elapsed : Nat
deriving DecidableEq, Repr

/-- A running handover: the attempt count, with the successor and the view that attempt 2 repeats (R45, R47). -/
structure HandoverRun where
  attempt : Attempt
  successor : Station
  view : StationSet
deriving DecidableEq, Repr

/-- What the station must remember within one possession: the hold-budget count (R41), whether it began in LEAVING (R38),
and what was granted or sent already (R38, R65, R71, R114, R131). -/
structure Batch where
  leaving : Bool
  statusGranted : Bool
  leaveSent : Bool
  count : Nat
  inviteSent : Bool
  snapshotAsked : Bool
  requestsSent : List Byte
deriving DecidableEq, Repr

/-- The Possession Unit (chapter 3). -/
structure Pos where
  state : Possession
  silence : Nat
  batch : Batch
  slot : Option Slot
  handover : Option HandoverRun
  turnaround : Timer
  hold : Timer
  fault : Option DriveFault
deriving DecidableEq, Repr

/-- The Membership Unit (chapter 4). The anchor is computed from the view. -/
structure Mem where
  view : StationSet
  cursor : Station
  joinPending : Bool
deriving DecidableEq, Repr

/-- What a member's last good STATUS packet reported (R79). -/
structure Report where
  l : Seq
  r : Seq
  c : Seq
  palette : PaletteState
deriving DecidableEq, Repr

/-- A readiness-table entry: unheard while it has no report (R79). -/
structure Readiness where
  participant : Option Bool
  report : Option Report
deriving DecidableEq, Repr

/-- The Agreement Unit (chapter 5). -/
structure Agr where
  l : Seq
  r : Seq
  c : Seq
  table : Table Readiness
  inStep : StationSet
  known : Bool
  wait : Nat
  deadlineReported : Bool
  agreement : Agreement
  pendingCommit : Option CommitBody
deriving DecidableEq, Repr

/-- An application of pending records: the entries it has still to write, in order, and whether a PRESENT pulse is due
when it completes (R173, R174). -/
structure Application where
  writes : List (Nat × Color)
  present : Bool
deriving DecidableEq, Repr

/-- A submitted record waiting without a serial (R104). -/
structure Submission where
  effective : Seq
  start : BitVec 16
  entries : List Color
deriving DecidableEq, Repr

/-- An installation in progress: S, E0, n, the next part expected (8 once part 7 is in) and the replays appended (R120). -/
structure Install where
  s : Seq
  e0 : Serial
  n : Nat
  nextPart : Nat
  replays : Nat
deriving DecidableEq, Repr

/-- The owed-answer record (R117). -/
structure Owed where
  requester : Station
  tag : Byte
deriving DecidableEq, Repr

/-- An answer being sent: S, E0 and n as taken when part 0 was granted, and the packet to grant next, 0 to 7 a part and
8 onward a replay (R118). -/
structure Answer where
  s : Seq
  e0 : Serial
  n : Nat
  next : Nat
deriving DecidableEq, Repr

/-- The Palette Unit (chapter 6). The head of `applications` is running, the rest wait for it (R109). `installing` holds the
entries of the SNAPSHOT part last heard that are still to be written (R174). The deferral mark is set exactly while an answer
is being sent, and is computed. -/
structure Pal where
  bank : Memory
  installing : List (Nat × Color)
  applications : List Application
  store : List UpdateRecord
  outbound : List Submission
  e : Serial
  credits : Table Nat
  state : PaletteState
  candidate : Option Station
  requestTag : Byte
  outstanding : Bool
  wait : Timer
  install : Option Install
  owed : Option Owed
  answer : Option Answer
deriving DecidableEq, Repr

/-- The last writer of an attribute (R125). -/
inductive Writer where
  | part
  | localPort
  | peer (n : Station)
deriving DecidableEq, Repr

/-- An attribute record (R125). -/
structure AttrRecord where
  value : Value
  writer : Writer
deriving DecidableEq, Repr

/-- The reasons events and failed requests carry, in the order of their codes (section 11.5). -/
inductive Reason where
  | power
  | restart
  | founded
  | noAnswer
  | driveHigh
  | driveLow
  | duplicateNumber
  | serial
  | full
  | check
  | ahead
  | self
  | broadcast
  | corrected
  | streamClosed
  | payloadFailed
  | queueFull
  | noReply
  | destinationLost
  | left
  | busy
  | range
  | readOnly
  | timeout
  | targetLost
deriving DecidableEq, Repr

/-- What a remote request asks (chapter 7.2). -/
inductive RequestKind where
  | read (start count : Byte)
  | write (index : Byte) (value : Value)
deriving DecidableEq, Repr

/-- The state of a request; a READ waiting for its return carries its timeout timer, a finished one its outcome. -/
inductive RequestState where
  | queued
  | awaitingReturn (elapsed : Nat)
  | done (values : List Value)
  | failed (reason : Reason)
deriving DecidableEq, Repr

/-- A request-table entry (chapter 7.2). -/
structure Request where
  tag : Byte
  kind : RequestKind
  target : Station
  attempts : Nat
  state : RequestState
  corrected : Bool
deriving DecidableEq, Repr

/-- An accepted READ of a peer (R135). -/
structure Return where
  requester : Station
  tag : Byte
  start : Byte
  count : Byte
deriving DecidableEq, Repr

/-- The Attribute Unit (chapter 7). `table` lists the records of indices 8 to 63 that differ from the reset record; the
request table is in order of age. -/
structure Att where
  table : Table AttrRecord
  requests : List Request
  returns : List Return
  tagCounter : Byte
deriving DecidableEq, Repr

/-- An outbound message record (chapter 8.2); its class is the queue it stands in. -/
structure OutMessage where
  tag : Byte
  dest : Dest
  stream : BitVec 2
  ack : Bool
  payload : List Byte
  attempts : Nat
deriving DecidableEq, Repr

/-- A delivered message (R149). -/
structure InMessage where
  source : Station
  stream : BitVec 2
  broadcast : Bool
  payload : List Byte
deriving DecidableEq, Repr

/-- The Message Unit (chapter 8). `held` is a record out of its queue in an open reply slot (R145). -/
structure Msg where
  priority : List OutMessage
  bulk : List OutMessage
  retry : Option OutMessage
  held : Option OutMessage
  inbound : List InMessage
  credits : Table Nat
  filter : Table Byte
  tagCounter : Byte
deriving DecidableEq, Repr

/-- The event kinds, in the order of their codes (R166; section 11.5). -/
inductive EventKind where
  | started
  | joined
  | dropped
  | left
  | memberAdded
  | memberRemoved
  | busFault
  | halted
  | presented
  | lagging
  | inStep
  | deadlineMissed
  | paletteDiverged
  | paletteResynced
  | paletteLate
  | messageArrived
  | messageSent
  | messageDelivered
  | messageFailed
  | requestDone
  | requestFailed
  | attributeWritten
deriving DecidableEq, Repr

/-- An event record (R166). -/
structure EventRecord where
  kind : EventKind
  station : Option Station := none
  sequence : Option Seq := none
  tag : Option Byte := none
  reason : Option Reason := none
  stations : Option StationSet := none
  lossFollows : Bool := false
deriving DecidableEq, Repr

/-- The reasons of a refused command, in the order of their codes (R160, R178). -/
inductive PortReason where
  | format
  | state
  | range
  | full
  | stale
  | empty
  | notMember
deriving DecidableEq, Repr

/-- The response to a command; DONE carries its data bytes as section 11.4 lays them out (R160, R178). -/
inductive Response where
  | done (data : List Byte)
  | queued (tag : Byte)
  | refused (reason : PortReason)
deriving DecidableEq, Repr

/-- The serial transaction: closed (CSN high), open with the output stream and the bits received so far, or abandoned: CSN low
with no transaction taken, because a reset was in force when it fell or while it stood low (R1, R156, R157; log 14). -/
inductive Port where
  | closed
  | opened (out : List Byte) (received : List Bool)
  | abandoned
deriving DecidableEq, Repr

/-- The Control Port and Event Queue (chapter 9). ATTN_N and SDO's drive are computed. -/
structure Cpe where
  port : Port
  held : Option Response
  events : List EventRecord
deriving DecidableEq, Repr

/-- The phases of the frame qualifier (R171). -/
inductive Phase where
  | waitLow
  | waitEdge
  | confirming
deriving DecidableEq, Repr

/-- The frame qualifier: its phase, the FRAME level last reported and how long it has stood, and the spacing window
(10.1, R171). -/
structure Qualifier where
  phase : Phase
  level : Bool
  stood : Nat
  spacing : Timer
deriving DecidableEq, Repr

/-- The PRESENT output (some while the pulse is high), the lookup outputs LD0 to LD29, and the entries sampled and not yet driven
on them, oldest first (R173, R175). -/
structure Outputs where
  present : Timer
  ld : Color
  lookups : List Color
deriving DecidableEq, Repr

/-- The start-up logic: the resets in force, the life-cycle state, the configuration record and the station number
(R1 to R3). -/
structure Startup where
  powerReset : Bool
  pinReset : Bool
  life : Life
  config : Option ConfigRecord
  number : Station
deriving DecidableEq, Repr

/-- The whole station. `free` counts the free values taken so far (log 5); `pending` is the queue of commands. -/
structure State where
  startup : Startup
  lif : Lif
  pos : Pos
  mem : Mem
  agr : Agr
  pal : Pal
  att : Att
  msg : Msg
  cpe : Cpe
  frame : Qualifier
  outputs : Outputs
  free : Nat
  pending : List Instr
deriving DecidableEq, Repr

/-- The LIF at the end of a power-on or pin reset and after a station reset (R32). -/
def Lif.reset : Lif :=
  { receiver := .off, lineBusy := false, lastError := none, driver := .released, released := none }

/-- A batch of no possession. -/
def Batch.idle : Batch :=
  { leaving := false, statusGranted := false, leaveSent := false, count := 0, inviteSent := false,
    snapshotAsked := false, requestsSent := [] }

/-- The POS after every reset (R57). -/
def Pos.reset : Pos :=
  { state := .quiet, silence := 0, batch := Batch.idle, slot := none, handover := none, turnaround := none, hold := none,
    fault := none }

/-- The MEM after every reset (R60). -/
def Mem.reset (number : Station) : Mem := { view := 0, cursor := number, joinPending := false }

/-- The AGR after every reset and outside the view (R100). -/
def Agr.reset : Agr :=
  { l := 0, r := 0, c := 0, table := [], inStep := 0, known := false, wait := 0, deadlineReported := false,
    agreement := .outside, pendingCommit := none }

/-- The PAL after a reset, over the bank that the reset leaves (R123). -/
def Pal.reset (bank : Memory) : Pal :=
  { bank := bank, installing := [], applications := [], store := [], outbound := [], e := 0, credits := [], state := .resync,
    candidate := none, requestTag := 0, outstanding := false, wait := none, install := none, owed := none, answer := none }

/-- The ATT after a reset, over the attribute table that the reset leaves (R129, R138). -/
def Att.reset (table : Table AttrRecord) : Att := { table := table, requests := [], returns := [], tagCounter := 0 }

/-- The MSG after every reset (R154). -/
def Msg.reset : Msg :=
  { priority := [], bulk := [], retry := none, held := none, inbound := [], credits := [], filter := [], tagCounter := 0 }

/-- The frame qualifier at the end of a power-on or pin reset, with FRAME at a level (R171). -/
def Qualifier.reset (level : Bool) : Qualifier := { phase := .waitLow, level := level, stood := 0, spacing := none }

/-- The station at the end of a power-on or pin reset with a station number and a FRAME level (R1, R2, R170). LD0 to LD29 stay
low until the first entry sampled after the reset is driven, and no lookup is under way (log 34). -/
def State.afterReset (number : Station) (level : Bool) (free : Nat) (pending : List Instr) : State :=
  { startup := { powerReset := false, pinReset := false, life := .unconfigured, config := none, number := number }
    lif := Lif.reset
    pos := Pos.reset
    mem := Mem.reset number
    agr := Agr.reset
    pal := Pal.reset []
    att := Att.reset []
    msg := Msg.reset
    cpe := { port := .closed, held := none, events := [{ kind := .started, reason := some .power }] }
    frame := Qualifier.reset level
    outputs := { present := none, ld := 0, lookups := [] }
    free := free
    pending := pending }

/-- The machine right after reset. The straps and FRAME are inputs: DESIGN CHOICE all straps low, station number 0
(log 3), and FRAME low (log 4). -/
def State.reset : State := State.afterReset 0 false 0 []

end Sys2Proof.Machine
end

