-- ==== Sys2Proof/Machine/Sets.lean ====
section
/-! DEFINITION. Sets of stations and the cyclic order of station numbers (R45, R58, R65, R113). -/

namespace Sys2Proof.Machine

/-- Whether a station is in a set. -/
def inSet (n : Station) (v : StationSet) : Bool := v.getLsbD n.val

/-- The set holding one station. -/
def single (n : Station) : StationSet := (1 : StationSet) <<< n.val

/-- A set with a station added. -/
def addTo (n : Station) (v : StationSet) : StationSet := v ||| single n

/-- A set with a station taken out. -/
def removeFrom (n : Station) (v : StationSet) : StationSet := v &&& ~~~ single n

/-- The stations of the first set that are not in the second. -/
def without (v w : StationSet) : StationSet := v &&& ~~~ w

/-- All station numbers, ascending. -/
def stations : List Station := List.finRange 32

/-- The members of a set, ascending. -/
def members (v : StationSet) : List Station := stations.filter (fun n => inSet n v)

/-- The set of a list of stations. -/
def setOf (ns : List Station) : StationSet := ns.foldl (fun v n => addTo n v) 0

/-- The anchor: the lowest-numbered member, none in an empty view (R58). -/
def anchor (v : StationSet) : Option Station := (members v).head?

/-- The successor of a station in a view: the lowest member above its number, or else the lowest member (R45, R71). -/
def successor (own : Station) (v : StationSet) : Option Station :=
  match (members v).find? (fun n => own < n) with
  | some n => some n
  | none => (members v).head?

/-- The 32 station numbers counting upward from the one above `n`, wrapping from 31 to 0, `n` itself last (R65, R113). -/
def upFrom (n : Station) : List Station := stations.map (fun k => n + 1 + k)

/-- The first station number after the cursor that is absent from the view (R65). -/
def nextAbsent (cursor : Station) (v : StationSet) : Option Station := (upFrom cursor).find? (fun n => !inSet n v)

/-- The station number of a byte, if it names one (section 11.4). -/
def stationOf (b : Byte) : Option Station := if h : b.toNat < 32 then some ⟨b.toNat, h⟩ else none

end Sys2Proof.Machine
end

