-- ==== Sys2Proof/Machine/Ops.lean ====
section
/-! DEFINITION. The named operations over the state: tables, the live bank, the event queue, and one update per unit. -/

namespace Sys2Proof.Machine

/-! ### Tables in canonical form -/

/-- The entry at an index, none where the table lists none. -/
def Table.get? {α : Type} : Table α → Nat → Option α
  | [], _ => none
  | (i, a) :: t, k => if i = k then some a else Table.get? t k

/-- The table with an entry at an index, in rising order of indices. -/
def Table.set {α : Type} : Table α → Nat → α → Table α
  | [], k, a => [(k, a)]
  | (i, b) :: t, k, a =>
    if k < i then (k, a) :: (i, b) :: t else if k = i then (k, a) :: t else (i, b) :: Table.set t k a

/-- The table without the entry at an index. -/
def Table.erase {α : Type} (t : Table α) (k : Nat) : Table α := t.filter (fun e => e.1 ≠ k)

/-- The table with a function of index and entry applied to every entry. -/
def Table.mapAll {α : Type} (t : Table α) (f : Nat → α → α) : Table α := t.map (fun e => (e.1, f e.1 e.2))

/-- The table that holds the same entry for every member of a set. -/
def Table.ofSet {α : Type} (v : StationSet) (a : α) : Table α := (members v).map (fun n => (n.val, a))

/-- The table without the entries of the stations of a set. -/
def Table.dropSet {α : Type} (t : Table α) (v : StationSet) : Table α := t.filter (fun e => !v.getLsbD e.1)

/-- Indices strictly rise. -/
def Table.sorted {α : Type} : Table α → Bool
  | [] => true
  | [_] => true
  | (i, _) :: (j, b) :: t => decide (i < j) && Table.sorted ((j, b) :: t)

/-! ### The live bank (R102) -/

/-- The number of entries of the live bank. -/
def bankSize : Nat := 512

/-- The entry at an index; an index not listed holds the zero entry. -/
def Memory.read (m : Memory) (i : Nat) : Color := (Table.get? m i).getD 0

/-- The bank with a whole entry written; a zero entry is not listed. -/
def Memory.write (m : Memory) (i : Nat) (c : Color) : Memory := if c = 0 then Table.erase m i else Table.set m i c

/-- The canonical form: indices strictly rise, stay below 512, and no entry is the zero entry. -/
def Memory.wf (m : Memory) : Bool := Table.sorted m && m.all (fun e => decide (e.1 < bankSize) && decide (e.2 ≠ 0))

/-- The bank after a list of writes, in order; an index outside the bank is not written. -/
def Memory.writeAll (m : Memory) : List (Nat × Color) → Memory
  | [] => m
  | (i, c) :: ws => Memory.writeAll (if i < bankSize then Memory.write m i c else m) ws

/-- The writes of a run of entries from a start index upward (R109). -/
def runWrites (start : Nat) (entries : List Color) : List (Nat × Color) :=
  entries.zipIdx.map (fun e => (start + e.2, e.1))

/-! ### The event queue (R166, R167) -/

/-- The capacity of the event queue. -/
def eventCapacity : Nat := 16

/-- The queue with the loss-follows mark set on its newest record. -/
def markNewest : List EventRecord → List EventRecord
  | [] => []
  | [e] => [{ e with lossFollows := true }]
  | e :: es => e :: markNewest es

/-- R167: an event joins the tail with its mark clear; raised into a full queue it is discarded and marks the newest. -/
def pushEvent (q : List EventRecord) (e : EventRecord) : List EventRecord :=
  if q.length < eventCapacity then q ++ [{ e with lossFollows := false }] else markNewest q

/-- The events of two units raised at one moment, in an order the choice function picks (R166). -/
def mergeEvents (choice : Nat → Bool) : Nat → Nat → List EventRecord → List EventRecord → List EventRecord
  | 0, _, xs, ys => xs ++ ys
  | fuel + 1, k, x :: xs, y :: ys =>
    if choice k then x :: mergeEvents choice fuel (k + 1) xs (y :: ys)
    else y :: mergeEvents choice fuel (k + 1) (x :: xs) ys
  | _ + 1, _, xs, ys => xs ++ ys

/-! ### One update per unit -/

/-- Updates the start-up logic. -/
def State.onStartup (s : State) (f : Startup → Startup) : State := { s with startup := f s.startup }
/-- Updates the LIF. -/
def State.onLif (s : State) (f : Lif → Lif) : State := { s with lif := f s.lif }
/-- Updates the POS. -/
def State.onPos (s : State) (f : Pos → Pos) : State := { s with pos := f s.pos }
/-- Updates the MEM. -/
def State.onMem (s : State) (f : Mem → Mem) : State := { s with mem := f s.mem }
/-- Updates the AGR. -/
def State.onAgr (s : State) (f : Agr → Agr) : State := { s with agr := f s.agr }
/-- Updates the PAL. -/
def State.onPal (s : State) (f : Pal → Pal) : State := { s with pal := f s.pal }
/-- Updates the ATT. -/
def State.onAtt (s : State) (f : Att → Att) : State := { s with att := f s.att }
/-- Updates the MSG. -/
def State.onMsg (s : State) (f : Msg → Msg) : State := { s with msg := f s.msg }
/-- Updates the CPE. -/
def State.onCpe (s : State) (f : Cpe → Cpe) : State := { s with cpe := f s.cpe }
/-- Updates the frame qualifier. -/
def State.onFrame (s : State) (f : Qualifier → Qualifier) : State := { s with frame := f s.frame }
/-- Updates PRESENT and LD0 to LD29. -/
def State.onOutputs (s : State) (f : Outputs → Outputs) : State := { s with outputs := f s.outputs }
/-- Takes free values: advances their counter. -/
def State.useFree (s : State) (n : Nat) : State := { s with free := s.free + n }

/-- The life-cycle state is set. -/
def State.setLife (s : State) (l : Life) : State := s.onStartup (fun u => { u with life := l })

/-- The possession state is set. -/
def State.setPossession (s : State) (p : Possession) : State := s.onPos (fun u => { u with state := p })

/-- An event is raised (R166, R167). -/
def State.raise (s : State) (e : EventRecord) : State :=
  s.onCpe (fun u => { u with events := pushEvent u.events e })

/-- Events are raised in the order given. -/
def State.raiseAll (s : State) (es : List EventRecord) : State := es.foldl State.raise s

/-- The events of two units at one moment, in either order (R166): a free value decides (log 5). -/
def State.raiseBoth (s : State) (xs ys : List EventRecord) : State :=
  (s.raiseAll (mergeEvents Config.eventOrder (xs.length + ys.length) s.free xs ys)).useFree
    (if xs.isEmpty || ys.isEmpty then 0 else xs.length + ys.length)

/-! ### Questions asked everywhere -/

/-- A power-on reset or a pin reset is in force (R1). -/
def State.inReset (s : State) : Bool := s.startup.powerReset || s.startup.pinReset

/-- The station is in the view: MEMBER or LEAVING (R58). -/
def State.inView (s : State) : Bool := s.startup.life == .member || s.startup.life == .leaving

/-- The station's own number. -/
def State.number (s : State) : Station := s.startup.number

/-- The configuration record as a unit reads it; the fallback is never read, since no unit needs the record while it is
absent (R4). -/
def State.cfg (s : State) : ConfigRecord :=
  s.startup.config.getD
    { participant := false, policy := .hold, deadline := 1, holdBudget := 6, openStreams := 0, recovery := .automatic }

/-- The life-cycle states whose receiver is on (R16). -/
def Life.receiverOn : Life → Bool
  | .unconfigured => false
  | .standby => false
  | .joinPending => true
  | .member => true
  | .leaving => true
  | .halted => true

end Sys2Proof.Machine
end

