-- ==== Sys2Proof/Decode.lean ====
section
/-! DEFINITION. Which command a word, or a control-port frame, spells. No row of spec/opcode_table.json gives bits, so no word
spells one; the spec itself gives the twenty control-port commands as frames of bytes (R159, section 11.4), and those are
decoded and encoded here. -/

namespace Sys2Proof

/-- The command a word spells by the table's bits: none, since no row gives bits. -/
def decodeTableWord (_nbits _w : Nat) : Option Instr := none

/-! ### Fields of a frame, most significant byte first -/

/-- A frame sequence number of five bytes. -/
def seqOfBytes (a b c d e : Byte) : Seq := (a ++ b ++ c ++ d ++ e : BitVec 40)

/-- A value of four bytes. -/
def valueOfBytes (a b c d : Byte) : Value := (a ++ b ++ c ++ d : BitVec 32)

/-- A 16-bit field of two bytes. -/
def serialOfBytes (a b : Byte) : Serial := (a ++ b : BitVec 16)

/-- The words of a variable part of 4 bytes each; bytes left over are no word. -/
def wordsOfBytes : List Byte → List Value
  | a :: b :: c :: d :: rest => valueOfBytes a b c d :: wordsOfBytes rest
  | _ => []

/-- The byte of a value at a bit position. -/
def byteAt {w : Nat} (v : BitVec w) (i : Nat) : Byte := v.extractLsb' i 8

/-- Five bytes of a sequence number. -/
def bytesOfSeq (q : Seq) : List Byte := [byteAt q 32, byteAt q 24, byteAt q 16, byteAt q 8, byteAt q 0]

/-- Four bytes of a value. -/
def bytesOfValue (v : Value) : List Byte := [byteAt v 24, byteAt v 16, byteAt v 8, byteAt v 0]

/-- Two bytes of a 16-bit field. -/
def bytesOfSerial (v : Serial) : List Byte := [byteAt v 8, byteAt v 0]

/-! ### Frames (R158, R159, section 11.4) -/

/-- The command of a complete frame; none for an unassigned code or a frame shorter or longer than its code requires. The
entry count of SUBMIT PALETTE and the payload size of SEND MESSAGE are the length byte of their variable part. -/
def decodeFrame : List Byte → Option Instr
  | [] => none
  | code :: args =>
    match code.toNat, args with
    | 0x01, [] => some .noOperation
    | 0x02, [] => some .readState
    | 0x03, [] => some .readView
    | 0x04, [n] => some (.readReadiness n)
    | 0x05, [] => some .takeEvent
    | 0x06, [p, a, d, h, o, r] => some (.configure p a d h o r)
    | 0x07, [] => some .go
    | 0x08, [] => some .leave
    | 0x09, [] => some .restart
    | 0x0A, [] => some .acknowledgeFault
    | 0x0B, [a, b, c, d, e] => some (.ready (seqOfBytes a b c d e))
    | 0x0C, a :: b :: c :: d :: e :: x :: y :: n :: rest =>
      if rest.length = 4 * n.toNat then some (.submitPalette (seqOfBytes a b c d e) (serialOfBytes x y) (wordsOfBytes rest))
      else none
    | 0x0D, [x, y, n] => some (.readPalette (serialOfBytes x y) n)
    | 0x0E, d :: st :: k :: c :: n :: rest => if rest.length = n.toNat then some (.sendMessage d st k c rest) else none
    | 0x0F, [] => some .takeMessage
    | 0x10, [a, n] => some (.readAttribute a n)
    | 0x11, [i, a, b, c, d] => some (.writeAttribute i (valueOfBytes a b c d))
    | 0x12, [t, a, n] => some (.remoteRead t a n)
    | 0x13, [t, i, a, b, c, d] => some (.remoteWrite t i (valueOfBytes a b c d))
    | 0x14, [t] => some (.takeResult t)
    | _, _ => none

/-- The frame of a control-port command; none for the rows that are no such command. -/
def encodeFrame : Instr → Option (List Byte)
  | .noOperation => some [0x01]
  | .readState => some [0x02]
  | .readView => some [0x03]
  | .readReadiness n => some [0x04, n]
  | .takeEvent => some [0x05]
  | .configure p a d h o r => some [0x06, p, a, d, h, o, r]
  | .go => some [0x07]
  | .leave => some [0x08]
  | .restart => some [0x09]
  | .acknowledgeFault => some [0x0A]
  | .ready n => some (0x0B :: bytesOfSeq n)
  | .submitPalette e start ws =>
    some (0x0C :: bytesOfSeq e ++ bytesOfSerial start ++ [BitVec.ofNat 8 ws.length] ++ ws.flatMap bytesOfValue)
  | .readPalette start n => some (0x0D :: bytesOfSerial start ++ [n])
  | .sendMessage d st k c payload => some ([0x0E, d, st, k, c, BitVec.ofNat 8 payload.length] ++ payload)
  | .takeMessage => some [0x0F]
  | .readAttribute a n => some [0x10, a, n]
  | .writeAttribute i v => some (0x11 :: i :: bytesOfValue v)
  | .remoteRead t a n => some [0x12, t, a, n]
  | .remoteWrite t i v => some (0x13 :: t :: i :: bytesOfValue v)
  | .takeResult t => some [0x14, t]
  | .powerOnReset => none
  | .powerOnResetEnd _ => none
  | .pinResetAssert => none
  | .pinResetRelease _ => none
  | .transactionOpen => none
  | .refusedFormat _ => none
  | .activity => none
  | .receiverRearm _ => none
  | .unreadablePacketHeard _ => none
  | .lifBeginDriving => none
  | .packetSent => none
  | .contention _ => none
  | .handoverHeard _ _ _ _ => none
  | .claimHeard _ _ => none
  | .inviteHeard _ _ => none
  | .joinHeard _ _ _ => none
  | .leaveHeard _ _ => none
  | .statusHeard _ _ => none
  | .commitHeard _ _ => none
  | .paletteHeard _ _ => none
  | .snapshotRequestHeard _ _ => none
  | .snapshotHeard _ _ _ => none
  | .replayHeard _ _ => none
  | .messageHeard _ _ _ _ => none
  | .readHeard _ _ _ _ => none
  | .writeHeard _ _ _ _ => none
  | .readReturnHeard _ _ _ _ => none
  | .ackHeard _ _ _ _ => none
  | .replyWindowEnd => none
  | .turnaroundWindowEnd => none
  | .claimDelayExpiry => none
  | .foundingSilenceExpiry => none
  | .busHoldIntervalExpiry => none
  | .snapshotWaitExpiry => none
  | .requestTimeout _ => none
  | .frameLowQualified => none
  | .frameRisingEdge => none
  | .frameGlitch => none
  | .framePulse => none
  | .spacingWindowClose => none
  | .applicationComplete => none
  | .presentPulseEnd => none
  | .paletteLookup _ => none
  | .frameFallingEdge => none

/-! ### Bits of a transaction (R156, R158) -/

/-- Eight bits, most significant first, as a byte. -/
def byteOfBits (bs : List Bool) : Byte := BitVec.ofNat 8 (bs.foldl (fun n b => 2 * n + (if b then 1 else 0)) 0)

/-- The whole bytes of a string of bits; none if a partial byte is left over. -/
def bytesOfBits : List Bool → Option (List Byte)
  | [] => some []
  | a :: b :: c :: d :: e :: f :: g :: h :: rest => (bytesOfBits rest).map (fun bs => byteOfBits [a, b, c, d, e, f, g, h] :: bs)
  | _ => none

/-- What R158 makes of the bits received in a transaction. -/
inductive Judgement where
  | nothing
  | malformed
  | command (i : Instr)
deriving DecidableEq, Repr

/-- The judgement of R158 at the rise of CSN. -/
def judgeBits (bits : List Bool) : Judgement :=
  match bits with
  | [] => .nothing
  | _ :: _ =>
    match bytesOfBits bits with
    | none => .malformed
    | some bytes =>
      match decodeFrame bytes with
      | some i => .command i
      | none => .malformed

/-- The row of the table that the rise of CSN is, for the bits received in the transaction. -/
def portRow (bits : List Bool) : Instr :=
  match judgeBits bits with
  | .command i => i
  | .nothing => .refusedFormat bits
  | .malformed => .refusedFormat bits

end Sys2Proof
end

