-- ==== Sys2Proof/WellFormed.lean ====
section
/-! DEFINITION. Which command terms describe something that can happen: sizes that the fields and counts of packets and frames
fix (R21, R159), and classes that agree with the kind (R23). -/

namespace Sys2Proof

/-- A short packet is never classed PAYLOAD FAILED, since it has no payload check (R22, R23). -/
def shortFlaw (f : Option Flaw) : Bool := f ≠ some .payloadFailed

/-- A good PALETTE or REPLAY payload holds 1 to 64 entries (R21). -/
def Payload.recordOk : Payload UpdateRecord → Bool
  | .good r => decide (1 ≤ r.entries.length) && decide (r.entries.length ≤ 64)
  | .failed _ => true

/-- A good SNAPSHOT payload has a part index 0 to 7, 64 entries, and the lead in part 0 alone (R21, section 11.2). -/
def Payload.snapshotOk (part : Byte) : Payload SnapshotBody → Bool
  | .good b => decide (part.toNat ≤ 7) && decide (b.entries.length = 64) && (b.lead.isSome == decide (part = 0))
  | .failed _ => true

/-- A good MESSAGE payload has 1 to 128 bytes (R21). -/
def Payload.messageOk : Payload (List Byte) → Bool
  | .good bytes => decide (1 ≤ bytes.length) && decide (bytes.length ≤ 128)
  | .failed _ => true

/-- A good READ RETURN payload has as many values as its count, 1 to 16 (R21). -/
def Payload.returnOk (count : Byte) : Payload (List Value) → Bool
  | .good vs => decide (1 ≤ vs.length) && decide (vs.length ≤ 16) && decide (vs.length = count.toNat)
  | .failed _ => true

/-- A packet that a receiver can hand to the units. -/
def Packet.wellFormed : Packet → Bool
  | .handover _ _ _ f => shortFlaw f
  | .claim _ f => shortFlaw f
  | .invite _ f => shortFlaw f
  | .join _ _ f => shortFlaw f
  | .leave _ f => shortFlaw f
  | .status _ _ => true
  | .commit _ _ => true
  | .palette _ p => p.recordOk
  | .snapshotRequest _ f => shortFlaw f
  | .snapshot _ part p => p.snapshotOk part
  | .replay _ p => p.recordOk
  | .message _ _ _ p => p.messageOk
  | .read _ _ _ f => shortFlaw f
  | .write _ _ _ f => shortFlaw f
  | .readReturn _ _ count p => p.returnOk count
  | .ack _ _ _ f => shortFlaw f

/-- A payload class that is judged when the receiver rearms, and not at an end delimiter (R15, R20, R21). -/
def Payload.lateFlaw {α : Type} : Payload α → Bool
  | .failed .lengthInvalid => true
  | .failed .endError => true
  | .failed .payloadFailed => false
  | .good _ => false

/-- Whether bits form a complete frame (R158). -/
def Judgement.isCommand : Judgement → Bool
  | .command _ => true
  | .malformed => false
  | .nothing => false

/-- The class of a packet besides HEADER CORRECTED, where the packet is heard when the receiver rearms (R15, R21). -/
def Packet.judgedInError : Packet → Bool
  | .handover _ _ _ f => f.isSome
  | .claim _ f => f.isSome
  | .invite _ f => f.isSome
  | .join _ _ f => f.isSome
  | .leave _ f => f.isSome
  | .status _ p => p.lateFlaw
  | .commit _ p => p.lateFlaw
  | .palette _ p => p.lateFlaw
  | .snapshotRequest _ f => f.isSome
  | .snapshot _ _ p => p.lateFlaw
  | .replay _ p => p.lateFlaw
  | .message _ _ _ p => p.lateFlaw
  | .read _ _ _ f => f.isSome
  | .write _ _ _ f => f.isSome
  | .readReturn _ _ _ p => p.lateFlaw
  | .ack _ _ _ f => f.isSome

/-- A packet heard at a rearm is unreadable or judged in error (R14 to R16). -/
def Heard.atRearm : Heard → Bool
  | .unreadable _ => true
  | .readable k => k.wellFormed && k.judgedInError

/-- The check every term of the command language passes or fails. -/
def Instr.wellFormed : Instr → Bool
  | .refusedFormat bits => !(judgeBits bits).isCommand
  | .submitPalette _ _ ws => decide (ws.length ≤ 255)
  | .sendMessage _ _ _ _ payload => decide (payload.length ≤ 255)
  | .receiverRearm judged => judged.all Heard.atRearm
  | .handoverHeard h a v f => (Packet.handover h a v f).wellFormed
  | .claimHeard h f => (Packet.claim h f).wellFormed
  | .inviteHeard h f => (Packet.invite h f).wellFormed
  | .joinHeard h p f => (Packet.join h p f).wellFormed
  | .leaveHeard h f => (Packet.leave h f).wellFormed
  | .statusHeard h p => (Packet.status h p).wellFormed
  | .commitHeard h p => (Packet.commit h p).wellFormed
  | .paletteHeard h p => (Packet.palette h p).wellFormed
  | .snapshotRequestHeard h f => (Packet.snapshotRequest h f).wellFormed
  | .snapshotHeard h part p => (Packet.snapshot h part p).wellFormed
  | .replayHeard h p => (Packet.replay h p).wellFormed
  | .messageHeard h a st p => (Packet.message h a st p).wellFormed
  | .readHeard h a n f => (Packet.read h a n f).wellFormed
  | .writeHeard h i v f => (Packet.write h i v f).wellFormed
  | .readReturnHeard h a n p => (Packet.readReturn h a n p).wellFormed
  | .ackHeard h r c f => (Packet.ack h r c f).wellFormed
  | .powerOnReset => true
  | .powerOnResetEnd _ => true
  | .pinResetAssert => true
  | .pinResetRelease _ => true
  | .transactionOpen => true
  | .noOperation => true
  | .readState => true
  | .readView => true
  | .readReadiness _ => true
  | .takeEvent => true
  | .configure _ _ _ _ _ _ => true
  | .go => true
  | .leave => true
  | .restart => true
  | .acknowledgeFault => true
  | .ready _ => true
  | .readPalette _ _ => true
  | .takeMessage => true
  | .readAttribute _ _ => true
  | .writeAttribute _ _ => true
  | .remoteRead _ _ _ => true
  | .remoteWrite _ _ _ => true
  | .takeResult _ => true
  | .activity => true
  | .unreadablePacketHeard _ => true
  | .lifBeginDriving => true
  | .packetSent => true
  | .contention _ => true
  | .replyWindowEnd => true
  | .turnaroundWindowEnd => true
  | .claimDelayExpiry => true
  | .foundingSilenceExpiry => true
  | .busHoldIntervalExpiry => true
  | .snapshotWaitExpiry => true
  | .requestTimeout _ => true
  | .frameLowQualified => true
  | .frameRisingEdge => true
  | .frameGlitch => true
  | .framePulse => true
  | .spacingWindowClose => true
  | .applicationComplete => true
  | .presentPulseEnd => true
  | .paletteLookup _ => true
  | .frameFallingEdge => true

end Sys2Proof
end

