-- ==== Sys2Proof/Machine/Wire.lean ====
section
/-! DEFINITION. The line (chapter 2, chapter 11): the cells of a packet as it is driven, the judgement of the cells a
receiver senses, and the comparator, which give the rows of the table for a packet heard, sent or cut off. -/

namespace Sys2Proof

/-! ### Levels and cells (R13) -/

/-- The level every receiver reports. -/
inductive Level where
  | high
  | low
  | released
deriving DecidableEq, Repr

/-- A bit cell: the levels of its two half-cells. -/
structure Cell where
  first : Level
  second : Level
deriving DecidableEq, Repr

/-- What a cell carries; a half-cell at RELEASED is the line's return. -/
inductive CellKind where
  | data (b : Bool)
  | violationHigh
  | violationLow
  | gone
deriving DecidableEq, Repr

/-- The four kinds of cell of R13. -/
def Cell.kind : Cell → CellKind
  | ⟨.high, .low⟩ => .data true
  | ⟨.low, .high⟩ => .data false
  | ⟨.high, .high⟩ => .violationHigh
  | ⟨.low, .low⟩ => .violationLow
  | ⟨.released, _⟩ => .gone
  | ⟨_, .released⟩ => .gone

/-- The cell of a data bit. -/
def dataCell (b : Bool) : Cell := if b then ⟨.high, .low⟩ else ⟨.low, .high⟩

/-- The start delimiter: the sync run, violation high, violation low (R14). -/
def startDelimiter : List Cell :=
  [dataCell false, dataCell false, dataCell false, dataCell false, ⟨.high, .high⟩, ⟨.low, .low⟩]

/-- The end delimiter: violation low, violation high (R15). -/
def endDelimiter : List Cell := [⟨.low, .low⟩, ⟨.high, .high⟩]

/-- The bits of a byte, most significant first (R13). -/
def bitsOfByte (b : Byte) : List Bool :=
  [b.getLsbD 7, b.getLsbD 6, b.getLsbD 5, b.getLsbD 4, b.getLsbD 3, b.getLsbD 2, b.getLsbD 1, b.getLsbD 0]

/-- The bits of bytes in the order sent. -/
def bitsOfBytes (bs : List Byte) : List Bool := bs.flatMap bitsOfByte

/-! ### The check codes (R177, R22) -/

/-- The position numbers of data bits 1 to 96: 3 to 103 without the powers of two. -/
def dataPositions : List (BitVec 7) :=
  ((List.range 101).map (fun i => i + 3)).filter (fun p => !([4, 8, 16, 32, 64].contains p)) |>.map (BitVec.ofNat 7)

/-- Check bits 0 to 6 of data bits: bit k is the exclusive-or of the data bits whose position has bit k set. -/
def checkBits (data : List Bool) : BitVec 7 :=
  ((data.zip dataPositions).map (fun e => if e.1 then e.2 else 0)).foldr (· ^^^ ·) 0

/-- Whether bits hold an odd number of ones. -/
def oddOnes (bits : List Bool) : Bool := bits.foldr xor false

/-- Byte 12 of a header: check bit k in bit k, and bit 7 so that all 104 bits hold an even number of ones. -/
def headerCheck (data : List Bool) : Byte :=
  BitVec.cons (xor (oddOnes data) (oddOnes (List.ofFn (fun k : Fin 7 => (checkBits data).getLsbD k)))) (checkBits data)

/-- The data bits with one inverted, counted from 0. -/
def invertAt (i : Nat) (data : List Bool) : List Bool := data.modify i not

/-- R177, R19: the decoding of 96 data bits and a check byte: the data bits as corrected and whether one bit was wrong; none for
HEADER FAILED. -/
def correctHeader (data : List Bool) (check : Byte) : Option (List Bool × Bool) :=
  let syndrome := checkBits data ^^^ check.setWidth 7
  let odd := xor (oddOnes data) (oddOnes (bitsOfByte check))
  if !odd then (if syndrome = 0 then some (data, false) else none)
  else if syndrome ∈ ([0, 1, 2, 4, 8, 16, 32, 64] : List (BitVec 7)) then some (data, true)
  else (dataPositions.idxOf? syndrome).map (fun i => (invertAt i data, true))

/-- One bit into the register of the payload check, generator 1021h. -/
def crcBit (r : BitVec 16) (b : Bool) : BitVec 16 :=
  if xor (r.getLsbD 15) b then (r <<< 1) ^^^ 0x1021 else r <<< 1

/-- The payload check of payload bytes (R22, R177). -/
def payloadCheck (payload : List Byte) : BitVec 16 := (bitsOfBytes payload).foldl crcBit 0xFFFF

/-! ### Packets as bytes (11.1, 11.2, R176) -/

/-- The kind code. -/
def Packet.code : Packet → Byte
  | .handover _ _ _ _ => 0x01
  | .claim _ _ => 0x02
  | .invite _ _ => 0x03
  | .join _ _ _ => 0x04
  | .leave _ _ => 0x05
  | .status _ _ => 0x06
  | .commit _ _ => 0x07
  | .palette _ _ => 0x08
  | .snapshotRequest _ _ => 0x09
  | .snapshot _ _ _ => 0x0A
  | .replay _ _ => 0x0B
  | .message _ _ _ _ => 0x0C
  | .read _ _ _ _ => 0x0D
  | .write _ _ _ _ => 0x0E
  | .readReturn _ _ _ _ => 0x0F
  | .ack _ _ _ _ => 0x10

/-- The destination byte. -/
def destByte : Dest → Byte
  | .station n => BitVec.ofNat 8 n.val
  | .all => 0x3F

/-- The result code of an ACK; `other` is sent by no station and stands for the codes above 08h. -/
def resultByte : AckResult → Byte
  | .ok => 0x00
  | .accepted => 0x01
  | .refusedBusy => 0x02
  | .refusedRange => 0x03
  | .refusedReadOnly => 0x04
  | .refusedState => 0x05
  | .streamClosed => 0x06
  | .queueFull => 0x07
  | .payloadFailed => 0x08
  | .other => 0x09

/-- A flag as a byte: 0 clear, 1 set. -/
def flagByte (b : Bool) : Byte := if b then 1 else 0

/-- Palette-state codes 0 to 2 (11.2). -/
def paletteCode : PaletteState → Byte
  | .normal => 0
  | .resync => 1
  | .receiving => 2

/-- An entry word: bits 31 and 30 zero. -/
def wordOfColor (c : Color) : List Byte := bytesOfValue (c.setWidth 32)

/-- The payload of an update record (11.2). -/
def recordBytes (r : UpdateRecord) : List Byte :=
  bytesOfSerial r.serial ++ bytesOfSeq r.effective ++ bytesOfSerial r.start ++ r.entries.flatMap wordOfColor

/-- The payload of a STATUS packet. -/
def statusBytes (b : StatusBody) : List Byte :=
  bytesOfSeq b.l ++ bytesOfSeq b.r ++ bytesOfSeq b.c ++
    [(if b.participant then 0x80 else 0x00) ||| paletteCode b.palette, b.paletteCredit, b.messageCredit] ++ bytesOfSerial b.e

/-- The payload of a SNAPSHOT packet. -/
def snapshotBytes (b : SnapshotBody) : List Byte :=
  (match b.lead with
   | some l => bytesOfSeq l.s ++ bytesOfSerial l.e0 ++ [l.n]
   | none => []) ++ b.entries.flatMap wordOfColor

/-- The payload is good. -/
def Payload.isGood {α : Type} : Payload α → Bool
  | .good _ => true
  | .failed _ => false

/-- The bytes of a good payload, none for one that failed. -/
def Payload.bytes {α : Type} (f : α → List Byte) : Payload α → List Byte
  | .good a => f a
  | .failed _ => []

/-- The payload bytes of a packet; a short packet has none. -/
def Packet.payload : Packet → List Byte
  | .status _ p => p.bytes statusBytes
  | .commit _ p => p.bytes (fun b => bytesOfSeq b.n ++ bytesOfValue b.inStep)
  | .palette _ p => p.bytes recordBytes
  | .snapshot _ _ p => p.bytes snapshotBytes
  | .replay _ p => p.bytes recordBytes
  | .message _ _ _ p => p.bytes id
  | .readReturn _ _ _ p => p.bytes (fun vs => vs.flatMap bytesOfValue)
  | .handover _ _ _ _ => []
  | .claim _ _ => []
  | .invite _ _ => []
  | .join _ _ _ => []
  | .leave _ _ => []
  | .snapshotRequest _ _ => []
  | .read _ _ _ _ => []
  | .write _ _ _ _ => []
  | .ack _ _ _ _ => []

/-- The entry count of a record payload. -/
def recordCount : Payload UpdateRecord → Byte
  | .good r => BitVec.ofNat 8 r.entries.length
  | .failed _ => 0

/-- Argument bytes 6 to 11; bytes not named are zero (R176). -/
def Packet.argument : Packet → List Byte
  | .handover _ _ v _ => bytesOfValue v ++ [0, 0]
  | .join _ p _ => [flagByte p, 0, 0, 0, 0, 0]
  | .palette _ p => [recordCount p, 0, 0, 0, 0, 0]
  | .snapshot _ part _ => [part, 0, 0, 0, 0, 0]
  | .replay _ p => [recordCount p, 0, 0, 0, 0, 0]
  | .message _ _ st _ => [st.setWidth 8, 0, 0, 0, 0, 0]
  | .read _ a n _ => [a, n, 0, 0, 0, 0]
  | .write _ i v _ => [i] ++ bytesOfValue v ++ [0]
  | .readReturn _ a n _ => [a, n, 0, 0, 0, 0]
  | .ack _ r c _ => [resultByte r, flagByte c, 0, 0, 0, 0]
  | .claim _ _ => [0, 0, 0, 0, 0, 0]
  | .invite _ _ => [0, 0, 0, 0, 0, 0]
  | .leave _ _ => [0, 0, 0, 0, 0, 0]
  | .status _ _ => [0, 0, 0, 0, 0, 0]
  | .commit _ _ => [0, 0, 0, 0, 0, 0]
  | .snapshotRequest _ _ => [0, 0, 0, 0, 0, 0]

/-- Bits 7 and 6 of byte 1: ack requested and attempt. -/
def Packet.flags : Packet → Byte
  | .message _ a _ _ => if a then 0x80 else 0
  | .handover _ .second _ _ => 0x40
  | _ => 0

/-- The header fields of a packet. -/
def Packet.head : Packet → Head
  | .handover h _ _ _ => h
  | .claim h _ => h
  | .invite h _ => h
  | .join h _ _ => h
  | .leave h _ => h
  | .status h _ => h
  | .commit h _ => h
  | .palette h _ => h
  | .snapshotRequest h _ => h
  | .snapshot h _ _ => h
  | .replay h _ => h
  | .message h _ _ _ => h
  | .read h _ _ _ => h
  | .write h _ _ _ => h
  | .readReturn h _ _ _ => h
  | .ack h _ _ _ => h

/-- Header bytes 0 to 11 (11.1). -/
def Packet.header (k : Packet) : List Byte :=
  [k.code, k.flags ||| BitVec.ofNat 8 k.head.source.val, destByte k.head.dest, k.head.tag] ++
    bytesOfSerial (BitVec.ofNat 16 k.payload.length) ++ k.argument

/-- The kinds that carry a payload (R18). -/
def longKind (code : Byte) : Bool := [0x06, 0x07, 0x08, 0x0A, 0x0B, 0x0C, 0x0F].contains code

/-- The bits of a packet between its delimiters: header, header check, and for a long packet the payload and its check. -/
def Packet.bits (k : Packet) : List Bool :=
  bitsOfBytes k.header ++ bitsOfByte (headerCheck (bitsOfBytes k.header)) ++
    (if longKind k.code then bitsOfBytes (k.payload ++ bytesOfSerial (payloadCheck k.payload)) else [])

/-- The cells a station drives for a packet (R28). -/
def Packet.cells (k : Packet) : List Cell := startDelimiter ++ k.bits.map dataCell ++ endDelimiter

/-- The packet has no class besides HEADER CORRECTED. -/
def Packet.flawless : Packet → Bool
  | .handover _ _ _ f => f.isNone
  | .claim _ f => f.isNone
  | .invite _ f => f.isNone
  | .join _ _ f => f.isNone
  | .leave _ f => f.isNone
  | .status _ p => p.isGood
  | .commit _ p => p.isGood
  | .palette _ p => p.isGood
  | .snapshotRequest _ f => f.isNone
  | .snapshot _ _ p => p.isGood
  | .replay _ p => p.isGood
  | .message _ _ _ p => p.isGood
  | .read _ _ _ f => f.isNone
  | .write _ _ _ f => f.isNone
  | .readReturn _ _ _ p => p.isGood
  | .ack _ r _ f => f.isNone && decide (r ≠ .other)

/-- A packet a station can send: well-formed, with no class and with a result that has a code (R29, R176). -/
def Packet.sendable (k : Packet) : Bool := k.wellFormed && k.flawless && !k.head.corrected

/-! ### Fields of a header received (R18 to R21, R176) -/

/-- The destination a byte names; none for BAD DESTINATION. -/
def destOfByte (b : Byte) : Option Dest :=
  if b = 0x3F then some .all else if h : b.toNat < 32 then some (.station ⟨b.toNat, h⟩) else none

/-- A kind code is assigned. -/
def knownKind (code : Byte) : Bool := decide (1 ≤ code.toNat) && decide (code.toNat ≤ 16)

/-- Whether a length is admitted by a kind with its first two argument bytes (R21). -/
def admits (code : Byte) (length : Nat) (a b : Byte) : Bool :=
  if code = 0x06 then decide (length = 20)
  else if code = 0x07 then decide (length = 9)
  else if code = 0x08 ∨ code = 0x0B then
    decide (1 ≤ a.toNat) && decide (a.toNat ≤ 64) && decide (length = 9 + 4 * a.toNat)
  else if code = 0x0A then (if a = 0 then decide (length = 264) else decide (a.toNat ≤ 7) && decide (length = 256))
  else if code = 0x0C then decide (1 ≤ length) && decide (length ≤ 128)
  else if code = 0x0F then decide (1 ≤ b.toNat) && decide (b.toNat ≤ 16) && decide (length = 4 * b.toNat)
  else decide (length = 0)

/-- The result an ACK code names; a code above 08h is another result. -/
def resultOfByte (b : Byte) : AckResult :=
  match b.toNat with
  | 0x00 => .ok
  | 0x01 => .accepted
  | 0x02 => .refusedBusy
  | 0x03 => .refusedRange
  | 0x04 => .refusedReadOnly
  | 0x05 => .refusedState
  | 0x06 => .streamClosed
  | 0x07 => .queueFull
  | 0x08 => .payloadFailed
  | _ => .other

/-- The palette state of a STATUS packet; 3 is taken as RESYNC. -/
def stateOfByte (b : Byte) : PaletteState :=
  match (b &&& 3).toNat with
  | 0 => .normal
  | 2 => .receiving
  | _ => .resync

/-- Entry words as colors, their named 30 bits alone. -/
def colorsOfBytes (bs : List Byte) : List Color := (wordsOfBytes bs).map (fun w => w.setWidth 30)

/-- The payload of a STATUS packet. -/
def statusOfBytes : List Byte → Payload StatusBody
  | [l0, l1, l2, l3, l4, r0, r1, r2, r3, r4, c0, c1, c2, c3, c4, f, pc, mc, e0, e1] =>
    .good { l := seqOfBytes l0 l1 l2 l3 l4, r := seqOfBytes r0 r1 r2 r3 r4, c := seqOfBytes c0 c1 c2 c3 c4
            participant := f.getLsbD 7, palette := stateOfByte f, paletteCredit := pc, messageCredit := mc
            e := serialOfBytes e0 e1 }
  | _ => .failed .lengthInvalid

/-- The payload of a COMMIT packet. -/
def commitOfBytes : List Byte → Payload CommitBody
  | [n0, n1, n2, n3, n4, s0, s1, s2, s3] => .good { n := seqOfBytes n0 n1 n2 n3 n4, inStep := valueOfBytes s0 s1 s2 s3 }
  | _ => .failed .lengthInvalid

/-- The payload of a PALETTE or REPLAY packet. -/
def recordOfBytes : List Byte → Payload UpdateRecord
  | s0 :: s1 :: q0 :: q1 :: q2 :: q3 :: q4 :: x0 :: x1 :: rest =>
    .good { serial := serialOfBytes s0 s1, effective := seqOfBytes q0 q1 q2 q3 q4, start := serialOfBytes x0 x1
            entries := colorsOfBytes rest }
  | _ => .failed .lengthInvalid

/-- The payload of a SNAPSHOT packet. -/
def snapshotOfBytes (part : Byte) (bs : List Byte) : Payload SnapshotBody :=
  if part = 0 then
    match bs with
    | q0 :: q1 :: q2 :: q3 :: q4 :: e0 :: e1 :: n :: rest =>
      .good { lead := some { s := seqOfBytes q0 q1 q2 q3 q4, e0 := serialOfBytes e0 e1, n := n }, entries := colorsOfBytes rest }
    | _ => .failed .lengthInvalid
  else .good { lead := none, entries := colorsOfBytes bs }

/-- The first flaw a receiver finds after a readable header, with the payload bytes where there is none. -/
inductive Body where
  | good (bytes : List Byte)
  | bad (f : Flaw)
deriving DecidableEq, Repr

/-- The class of a short packet. -/
def Body.flaw : Body → Option Flaw
  | .good _ => none
  | .bad f => some f

/-- The payload of a long packet. -/
def Body.payload {α : Type} (read : List Byte → Payload α) : Body → Payload α
  | .good bytes => read bytes
  | .bad f => .failed f

/-- The packet of a readable header and what followed it. -/
def packetOf (code flags : Byte) (h : Head) (arg : List Byte) (body : Body) : Option Packet :=
  match code.toNat, arg with
  | 0x01, [a, b, c, d, _, _] =>
    some (.handover h (if flags.getLsbD 6 then .second else .first) (valueOfBytes a b c d) body.flaw)
  | 0x02, _ => some (.claim h body.flaw)
  | 0x03, _ => some (.invite h body.flaw)
  | 0x04, [a, _, _, _, _, _] => some (.join h (a.getLsbD 0) body.flaw)
  | 0x05, _ => some (.leave h body.flaw)
  | 0x06, _ => some (.status h (body.payload statusOfBytes))
  | 0x07, _ => some (.commit h (body.payload commitOfBytes))
  | 0x08, _ => some (.palette h (body.payload recordOfBytes))
  | 0x09, _ => some (.snapshotRequest h body.flaw)
  | 0x0A, [a, _, _, _, _, _] => some (.snapshot h a (body.payload (snapshotOfBytes a)))
  | 0x0B, _ => some (.replay h (body.payload recordOfBytes))
  | 0x0C, [a, _, _, _, _, _] => some (.message h (flags.getLsbD 7) (a.setWidth 2) (body.payload .good))
  | 0x0D, [a, b, _, _, _, _] => some (.read h a b body.flaw)
  | 0x0E, [i, a, b, c, d, _] => some (.write h i (valueOfBytes a b c d) body.flaw)
  | 0x0F, [a, b, _, _, _, _] => some (.readReturn h a b (body.payload (fun bs => .good (wordsOfBytes bs))))
  | 0x10, [a, b, _, _, _, _] => some (.ack h (resultOfByte a) (b.getLsbD 0) body.flaw)
  | _, _ => none

/-! ### The judgement of the cells sensed (R14, R15, R19 to R23, R31) -/

/-- The first n cells as data bits, with the cells after them; none if one of them is no data cell or the line has
returned to RELEASED before. -/
def takeBits : Nat → List Cell → Option (List Bool × List Cell)
  | 0, cs => some ([], cs)
  | _ + 1, [] => none
  | n + 1, c :: cs =>
    match c.kind with
    | .data b => (takeBits n cs).map (fun r => (b :: r.1, r.2))
    | .violationHigh => none
    | .violationLow => none
    | .gone => none

/-- Stage 1: the second to sixth cells of the start delimiter. The first is not judged, since the departure may distort it, but the
line must not be back at RELEASED when it ends (R14). The cells after the delimiter, none for START ERROR. -/
def afterStart : List Cell → Option (List Cell)
  | a :: b :: c :: d :: e :: f :: rest =>
    if a.second ≠ .released ∧ b.kind = .data false ∧ c.kind = .data false ∧ d.kind = .data false ∧ e.kind = .violationHigh ∧
      f.kind = .violationLow
    then some rest else none
  | _ => none

/-- The end delimiter stands where it is expected. -/
def endsHere : List Cell → Bool
  | a :: b :: _ => decide (a.kind = .violationLow) && decide (b.kind = .violationHigh)
  | _ => false

/-- Stages 6 and 7 of a long packet: the payload and its check, and the end delimiter after them. -/
def longBody (length : Nat) (cells : List Cell) : Body :=
  match takeBits (8 * (length + 2)) cells with
  | none => .bad .endError
  | some (bits, rest) =>
    if !endsHere rest then .bad .endError
    else
      let payload := ((bytesOfBits bits).getD []).take length
      let check := ((bytesOfBits bits).getD []).drop length
      if check = bytesOfSerial (payloadCheck payload) then .good payload else .bad .payloadFailed

/-- Stages 5 to 7: the length, the end position and the payload check. -/
def bodyOf (code : Byte) (length : Nat) (a b : Byte) (cells : List Cell) : Body :=
  if !admits code length a b then .bad .lengthInvalid
  else if longKind code then longBody length cells
  else if endsHere cells then .good [] else .bad .endError

/-- Stages 3 to 7 over the header bytes as used. -/
def judgeHeader (header : List Byte) (corrected : Bool) (cells : List Cell) : Heard :=
  match header with
  | [code, f, d, tag, n1, n0, a, b, c, x, y, z] =>
    if !knownKind code then .unreadable (.unknownKind corrected)
    else
      match destOfByte d with
      | none => .unreadable (.badDestination corrected)
      | some dest =>
        let h : Head := { source := ⟨f.toNat % 32, Nat.mod_lt _ (by decide)⟩, dest := dest, tag := tag, corrected := corrected }
        let length := (serialOfBytes n1 n0).toNat % 1024
        match packetOf code f h [a, b, c, x, y, z] (bodyOf code length a b cells) with
        | some k => .readable k
        | none => .unreadable (.unknownKind corrected)
  | _ => .unreadable .headerFailed

/-- The judgement of a packet from the cells sensed since the line's departure; past the list's end the line is RELEASED (R23). -/
def judge (cells : List Cell) : Heard :=
  match afterStart cells with
  | none => .unreadable .startError
  | some rest =>
    match takeBits 104 rest with
    | none => .unreadable .headerFailed
    | some (bits, rest) =>
      match correctHeader (bits.take 96) (byteOfBits (bits.drop 96)) with
      | none => .unreadable .headerFailed
      | some (data, corrected) => judgeHeader ((bytesOfBits data).getD []) corrected rest

/-! ### The comparator (R30) -/

/-- The levels of cells, half-cell by half-cell. -/
def halfCells (cells : List Cell) : List Level := cells.flatMap (fun c => [c.first, c.second])

/-- The kind of a contention by the level driven; a driver never drives RELEASED. -/
def driveFault : Level → Option DriveFault
  | .high => some .driveHigh
  | .low => some .driveLow
  | .released => none

/-- The comparison of the levels driven with the levels sensed, half-cell by half-cell: the kind of contention at the first
half-cell in which they differ, none where they agree in all that are driven. Past the end of the sensed list the line is at
RELEASED, as `judge` reads the end of its cells. -/
def compareLevels : List Level → List Level → Option DriveFault
  | [], _ => none
  | d :: ds, sensed => if d = sensed.headD .released then compareLevels ds sensed.tail else driveFault d

/-- What the comparator finds while a packet is driven, from the first half-cell of its start delimiter to the last of its end
delimiter. -/
def Packet.contention (k : Packet) (sensed : List Cell) : Option DriveFault := compareLevels (halfCells k.cells) (halfCells sensed)

/-! ### The rows of the table for what a receiver senses (R14 to R17) -/

/-- The row of a readable packet heard at its end delimiter. -/
def Packet.row : Packet → Instr
  | .handover h a v f => .handoverHeard h a v f
  | .claim h f => .claimHeard h f
  | .invite h f => .inviteHeard h f
  | .join h p f => .joinHeard h p f
  | .leave h f => .leaveHeard h f
  | .status h p => .statusHeard h p
  | .commit h p => .commitHeard h p
  | .palette h p => .paletteHeard h p
  | .snapshotRequest h f => .snapshotRequestHeard h f
  | .snapshot h part p => .snapshotHeard h part p
  | .replay h p => .replayHeard h p
  | .message h a st p => .messageHeard h a st p
  | .read h a n f => .readHeard h a n f
  | .write h i v f => .writeHeard h i v f
  | .readReturn h a n p => .readReturnHeard h a n p
  | .ack h r c f => .ackHeard h r c f

/-- The rows a receiver ARMED before the packet gives for it: the activity, the packet heard at its end delimiter, and the rearm;
a packet judged in error is heard at the rearm. -/
def lineRows (cells : List Cell) : List Instr :=
  match judge cells with
  | .unreadable u => [.activity, .receiverRearm (some (.unreadable u))]
  | .readable k => if k.judgedInError then [.activity, .receiverRearm (some (.readable k))]
    else [.activity, k.row, .receiverRearm none]

/-- The rows at the station that drives a packet, from the cells its receiver senses meanwhile (R28 to R30): the packet is sent, or
contention is found. -/
def drivingRows (k : Packet) (sensed : List Cell) : List Instr :=
  match k.contention sensed with
  | none => [.lifBeginDriving, .packetSent]
  | some kind => [.lifBeginDriving, .contention kind]

end Sys2Proof
end

