-- ==== Sys2Proof/Machine/Flags.lean ====
section
/-! DEFINITION. Status the part computes from its state: the pins ATTN_N and SDO, PRESENT and the deferral mark, the
conditions the units test, and the codes of sections 11.4 to 11.6 under which status is reported. -/

namespace Sys2Proof.Machine

/-- The level of ATTN_N: low exactly while the event queue holds a record, released high in a reset (R1, R169). -/
def attnN (s : State) : Bool := s.inReset || s.cpe.events.isEmpty

/-- Whether SDO is driven: while a transaction is open (R156). -/
def sdoDriven (s : State) : Bool :=
  match s.cpe.port with
  | .opened _ _ => true
  | .closed => false
  | .abandoned => false

/-- The level of PRESENT (R173). -/
def presentHigh (s : State) : Bool := s.outputs.present.isSome

/-- Whether the LIF drives the line (R32). -/
def Driver.isDriving : Driver → Bool
  | .driving _ => true
  | .waiting _ => false
  | .released => false

/-- The packet the LIF drives, if it drives one. -/
def Driver.driven : Driver → Option Tx
  | .driving tx => some tx
  | .waiting _ => none
  | .released => none

/-- Whether the receiver follows the line: on, and not waiting in DRAINING for it to stay RELEASED. A frame that departs in
DRAINING, or was under way when the receiver was switched on, is not seen (R16). -/
def Receiver.follows : Receiver → Bool
  | .off => false
  | .draining => false
  | .armed => true
  | .delimiter => true
  | .header => true
  | .payload => true
  | .fin => true

/-- The deferral mark: set from the grant of an answer's first packet to the sending or cutting of its last (R110). -/
def Pal.deferral (p : Pal) : Bool := p.answer.isSome

/-- Serial a is behind serial b, b ahead of a: (b − a) modulo 65536 lies in 1 to 32767 (spec/00). -/
def serialBehind (a b : Serial) : Bool := decide (1 ≤ (b - a).toNat) && decide ((b - a).toNat ≤ 32767)

/-! ### Codes (sections 11.2, 11.4, 11.5) -/

/-- Life-cycle codes 0 to 5. -/
def Life.code : Life → Byte
  | .unconfigured => 0
  | .standby => 1
  | .joinPending => 2
  | .member => 3
  | .leaving => 4
  | .halted => 5

/-- Possession codes 0 to 6. -/
def Possession.code : Possession → Byte
  | .quiet => 0
  | .listening => 1
  | .possessing => 2
  | .awaitingReply => 3
  | .handingOver => 4
  | .replying => 5
  | .busHold => 6

/-- Agreement codes 0 to 2. -/
def Agreement.code : Agreement → Byte
  | .outside => 0
  | .inStep => 1
  | .lagging => 2

/-- Policy codes: 0 HOLD, 1 DROP LATE. -/
def Policy.code : Policy → Byte
  | .hold => 0
  | .dropLate => 1

/-- Recovery codes: 0 AUTOMATIC, 1 ACKNOWLEDGED. -/
def Recovery.code : Recovery → Byte
  | .automatic => 0
  | .acknowledged => 1

/-- Fault-record codes: 0 none, 1 DRIVE-HIGH, 2 DRIVE-LOW. -/
def faultCode : Option DriveFault → Byte
  | none => 0
  | some .driveHigh => 1
  | some .driveLow => 2

/-- The bit of a payload class in the last receive error byte. -/
def flawByte : Flaw → Byte
  | .endError => 0x40
  | .payloadFailed => 0x08
  | .lengthInvalid => 0x01

/-- The last receive error byte: one bit per class (R178). -/
def classesCode : Classes → Byte
  | .unreadable .startError => 0x80
  | .unreadable .headerFailed => 0x10
  | .unreadable (.unknownKind c) => (if c then 0x20 else 0) ||| 0x04
  | .unreadable (.badDestination c) => (if c then 0x20 else 0) ||| 0x02
  | .readable c none => if c then 0x20 else 0
  | .readable c (some f) => (if c then 0x20 else 0) ||| flawByte f

/-- Last-writer codes: a station number, 40h LOCAL, 41h PART (R178). -/
def Writer.code : Writer → Byte
  | .peer n => BitVec.ofNat 8 n.val
  | .localPort => 0x40
  | .part => 0x41

/-- Event kind codes 01h to 16h (section 11.5). -/
def EventKind.code : EventKind → Byte
  | .started => 0x01
  | .joined => 0x02
  | .dropped => 0x03
  | .left => 0x04
  | .memberAdded => 0x05
  | .memberRemoved => 0x06
  | .busFault => 0x07
  | .halted => 0x08
  | .presented => 0x09
  | .lagging => 0x0A
  | .inStep => 0x0B
  | .deadlineMissed => 0x0C
  | .paletteDiverged => 0x0D
  | .paletteResynced => 0x0E
  | .paletteLate => 0x0F
  | .messageArrived => 0x10
  | .messageSent => 0x11
  | .messageDelivered => 0x12
  | .messageFailed => 0x13
  | .requestDone => 0x14
  | .requestFailed => 0x15
  | .attributeWritten => 0x16

/-- Reason codes 01h to 19h (section 11.5). -/
def Reason.code : Reason → Byte
  | .power => 0x01
  | .restart => 0x02
  | .founded => 0x03
  | .noAnswer => 0x04
  | .driveHigh => 0x05
  | .driveLow => 0x06
  | .duplicateNumber => 0x07
  | .serial => 0x08
  | .full => 0x09
  | .check => 0x0A
  | .ahead => 0x0B
  | .self => 0x0C
  | .broadcast => 0x0D
  | .corrected => 0x0E
  | .streamClosed => 0x0F
  | .payloadFailed => 0x10
  | .queueFull => 0x11
  | .noReply => 0x12
  | .destinationLost => 0x13
  | .left => 0x14
  | .busy => 0x15
  | .range => 0x16
  | .readOnly => 0x17
  | .timeout => 0x18
  | .targetLost => 0x19

/-- Refusal codes 01h to 07h (R178). -/
def PortReason.code : PortReason → Byte
  | .format => 0x01
  | .state => 0x02
  | .range => 0x03
  | .full => 0x04
  | .stale => 0x05
  | .empty => 0x06
  | .notMember => 0x07

/-! ### Fields as bytes, most significant byte first (chapter 11) -/

/-- A number as a byte. -/
def byte (n : Nat) : Byte := BitVec.ofNat 8 n

/-- A station number, or FFh where it is absent (R178). -/
def stationByte : Option Station → Byte
  | some n => byte n.val
  | none => 0xFF

/-- The fourteen bytes of an event record; absent fields are zero and the presence byte tells (section 11.5). -/
def EventRecord.bytes (e : EventRecord) : List Byte :=
  [e.kind.code,
   flagByte e.station.isSome ||| flagByte e.sequence.isSome <<< 1 ||| flagByte e.tag.isSome <<< 2
     ||| flagByte e.reason.isSome <<< 3 ||| flagByte e.stations.isSome <<< 4 ||| flagByte e.lossFollows <<< 7,
   (e.station.map (fun n => byte n.val)).getD 0]
    ++ bytesOfSeq (e.sequence.getD 0) ++ [e.tag.getD 0, (e.reason.map Reason.code).getD 0] ++ bytesOfValue (e.stations.getD 0)

/-- The response bytes after the length byte: the form, then the tag, the reason or the data (R178). -/
def Response.bytes : Response → List Byte
  | .done data => 0x00 :: data
  | .queued tag => [0x01, tag]
  | .refused r => [0x02, r.code]

/-- The outgoing stream: the length byte and the response, or a length byte of 0 for an empty held response (R157). -/
def outStream : Option Response → List Byte
  | none => [0]
  | some r => byte r.bytes.length :: r.bytes

end Sys2Proof.Machine
end

