-- ==== Sys2Proof/Machine/Operands.lean ====
section
/-! DEFINITION. The operand forms of the control-port commands: argument bytes as the values the owning units test
(section 11.4, R178). -/

namespace Sys2Proof.Machine

/-- The participant field: 0 no, 1 yes. -/
def participantOf (b : Byte) : Option Bool := if b = 0 then some false else if b = 1 then some true else none

/-- The policy field: 0 HOLD, 1 DROP LATE. -/
def policyOf (b : Byte) : Option Policy := if b = 0 then some .hold else if b = 1 then some .dropLate else none

/-- The deadline field: 1 to 60 frame pulses. -/
def deadlineOf (b : Byte) : Option Nat := if 1 ≤ b.toNat ∧ b.toNat ≤ 60 then some b.toNat else none

/-- The hold-budget field: 0 is the default mark, which selects 6; or 2 to 16. -/
def budgetOf (b : Byte) : Option Nat :=
  if b = 0 then some 6 else if 2 ≤ b.toNat ∧ b.toNat ≤ 16 then some b.toNat else none

/-- The open-streams field: bits 3 to 0, bits 7 to 4 zero. -/
def streamsOf (b : Byte) : Option (BitVec 4) := if b.toNat < 16 then some (b.setWidth 4) else none

/-- The recovery field: 0 AUTOMATIC, 1 ACKNOWLEDGED. -/
def recoveryOf (b : Byte) : Option Recovery := if b = 0 then some .automatic else if b = 1 then some .acknowledged else none

/-- The configuration record of six argument bytes, none if any field is out of range (R3, R178). -/
def configOf (participant policy deadline budget streams recovery : Byte) : Option ConfigRecord := do
  let p ← participantOf participant
  let a ← policyOf policy
  let d ← deadlineOf deadline
  let h ← budgetOf budget
  let o ← streamsOf streams
  let r ← recoveryOf recovery
  return { participant := p, policy := a, deadline := d, holdBudget := h, openStreams := o, recovery := r }

/-- A palette entry word as an entry: its named 30 bits alone (R176). -/
def colorOfWord (w : Value) : Color := w.setWidth 30

/-- The outbound class a SEND MESSAGE class byte names: 0 PRIORITY, 1 BULK. -/
inductive MessageClass where
  | priority
  | bulk
deriving DecidableEq, Repr

/-- The class byte of SEND MESSAGE. -/
def messageClassOf (b : Byte) : Option MessageClass := if b = 0 then some .priority else if b = 1 then some .bulk else none

/-- The most payload bytes a class admits (R141). -/
def MessageClass.limit : MessageClass → Nat
  | .priority => 16
  | .bulk => 128

/-- A run of `count` things from a start index fits below a limit, and the count lies in 1 to `most` (R103, R104, R127, R130,
R135). -/
def runFits (start count most size : Nat) : Bool := decide (1 ≤ count) && decide (count ≤ most) && decide (start + count ≤ size)

end Sys2Proof.Machine
end

