-- ==== Sys2Proof/Machine/Agreement.lean ====
section
/-! DEFINITION. The Agreement Unit (chapter 5): readiness, in-step set, commit decision and adoption, the frame pulse. -/

namespace Sys2Proof.Machine

/-- The readiness-table entry of a station (R79). -/
def Agr.entry (a : Agr) (n : Station) : Option Readiness := Table.get? a.table n.val

/-- The last report of a heard entry whose participant flag is set. -/
def participantReport : Option Readiness → Option Report
  | some ⟨some true, rep⟩ => rep
  | _ => none

/-- The set P of R85, each station with the R_s of its entry: in the in-step set, in the view, heard, participant. -/
def Agr.counted (a : Agr) (view : StationSet) : List (Station × Seq) :=
  (members (view &&& a.inStep)).filterMap (fun n => (participantReport (a.entry n)).map (fun rep => (n, rep.r)))

/-- The stations of P with R_s beyond C. -/
def Agr.ahead (a : Agr) (view : StationSet) : List (Station × Seq) := (a.counted view).filter (fun p => a.c < p.2)

/-- The stations of P with R_s at or below C, the late ones (R93). -/
def Agr.late (a : Agr) (view : StationSet) : List (Station × Seq) := (a.counted view).filter (fun p => !decide (a.c < p.2))

/-- The least sequence of a list of stations with sequences, 0 for none. -/
def leastSeq : List (Station × Seq) → Seq
  | [] => 0
  | [p] => p.2
  | p :: ps => if p.2 < leastSeq ps then p.2 else leastSeq ps

/-- An unheard entry, with the participant flag it may hold (R79). -/
def unheard (participant : Option Bool) : Readiness := { participant := participant, report := none }

/-- R80, first part: the source's entry takes what the packet carries and is heard. -/
def Agr.noteStatus (a : Agr) (src : Station) (b : StatusBody) : Agr :=
  let entry : Readiness :=
    { participant := some b.participant, report := some { l := b.l, r := b.r, c := b.c, palette := b.palette } }
  { a with table := Table.set a.table src.val entry }

/-- R80, second part: a higher carried C is adopted, and the set is then unknown. -/
def Agr.adoptC (a : Agr) (c : Seq) : Agr :=
  if a.c < c then { a with c := c, known := false, wait := 0, deadlineReported := false } else a

/-- A LAGGING station taken back: IN STEP with its event (R83, R84, R89). -/
def Agr.takeBack (a : Agr) : Agr × List EventRecord :=
  if a.agreement = .lagging then ({ a with agreement := .inStep }, [{ kind := .inStep, sequence := some a.c }]) else (a, [])

/-- R83: the catch-up test on the entry just updated. -/
def Agr.catchUp (a : Agr) (own src : Station) (b : StatusBody) : Agr × List EventRecord :=
  if a.known && b.participant && decide (a.c ≤ b.l) && !inSet src a.inStep then
    let a' := { a with inStep := addTo src a.inStep }
    if src = own then a'.takeBack else (a', [])
  else (a, [])

/-- An entry that does not stand in the way of a rebuild: heard and, for a participant, caught up (R84). -/
def Agr.settledEntry (a : Agr) (n : Station) : Bool :=
  match a.entry n with
  | some ⟨some true, some rep⟩ => decide (a.c ≤ rep.l)
  | some ⟨_, some _⟩ => true
  | _ => false

/-- R84: an unknown set is rebuilt from every participant once all entries are heard and caught up. -/
def Agr.rebuild (a : Agr) (own : Station) (view : StationSet) : Agr × List EventRecord :=
  if !a.known && (members view).all a.settledEntry then
    let set := setOf ((members view).filter (fun n => (participantReport (a.entry n)).isSome))
    let a' := { a with inStep := set, known := true }
    if inSet own set then a'.takeBack else (a', [])
  else (a, [])

/-- R80, R83, R84: a good STATUS packet of a member, in that order. -/
def Agr.hearStatus (a : Agr) (own : Station) (view : StationSet) (src : Station) (b : StatusBody) : Agr × List EventRecord :=
  let r1 := ((a.noteStatus src b).adoptC b.c).catchUp own src b
  let r2 := r1.1.rebuild own view
  (r2.1, r1.2 ++ r2.2)

/-- The commit decision over a known in-step set: normal (R86), drop-late (R87) or none. -/
def Agr.decision (a : Agr) (cfg : ConfigRecord) (view : StationSet) : Option CommitBody :=
  let p := a.counted view
  let up := a.ahead view
  if !a.known || up.isEmpty then none
  else if up.length = p.length then some { n := leastSeq p, inStep := setOf (p.map Prod.fst) }
  else if cfg.policy = .dropLate ∧ cfg.deadline ≤ a.wait then some { n := leastSeq up, inStep := setOf (up.map Prod.fst) }
  else none

/-- R89, last part: a participant's agreement state after an adopted COMMIT packet. -/
def Agr.settle (a : Agr) (own src : Station) (b : CommitBody) : Agr × List EventRecord :=
  match a.agreement with
  | .outside => (a, [])
  | .inStep =>
    if inSet own b.inStep then (a, [])
    else ({ a with agreement := .lagging }, [{ kind := .lagging, sequence := some b.n, station := some src }])
  | .lagging => if inSet own b.inStep then a.takeBack else (a, [])

/-- R89, R90: a good COMMIT packet is adopted when its N exceeds C, else ignored whole. -/
def Agr.hearCommit (a : Agr) (own : Station) (view : StationSet) (src : Station) (b : CommitBody) : Agr × List EventRecord :=
  if a.c < b.n then
    { a with c := b.n, inStep := b.inStep &&& view, known := true, wait := 0, deadlineReported := false }.settle own src b
  else (a, [])

/-- R91: whether a frame pulse presents. -/
def Agr.presents (a : Agr) : Bool := decide (a.l < a.r) && decide (a.r ≤ a.c)

/-- R91: the present decision. -/
def Agr.present (a : Agr) : Agr := if a.presents then { a with l := a.r } else a

/-- R92: the wait count at a frame pulse. -/
def Agr.countWait (a : Agr) (view : StationSet) : Agr :=
  { a with wait := if a.known && !(a.ahead view).isEmpty then min 63 (a.wait + 1) else 0 }

/-- R93: whether the deadline is reported as missed at this pulse, after the count. -/
def Agr.missed (a : Agr) (deadline : Nat) (view : StationSet) : Bool :=
  decide (deadline ≤ a.wait) && !a.deadlineReported && !(a.late view).isEmpty

/-- R93: the deadline check. -/
def Agr.checkDeadline (a : Agr) (deadline : Nat) (view : StationSet) : Agr × List EventRecord :=
  if a.missed deadline view then
    ({ a with deadlineReported := true },
     [{ kind := .deadlineMissed, sequence := some a.c, stations := some (setOf ((a.late view).map Prod.fst)) }])
  else (a, [])

/-- R91 to R93: the AGR's part of a frame pulse, PRESENTED before DEADLINE MISSED. -/
def Agr.pulse (a : Agr) (deadline : Nat) (view : StationSet) : Agr × List EventRecord :=
  let r := (a.present.countWait view).checkDeadline deadline view
  (r.1, (if a.presents then [{ kind := .presented, sequence := some a.r }] else []) ++ r.2)

/-- R98: the AGR's enter-view actions; the set is known only when founding. -/
def Agr.enter (participant founding : Bool) (view : StationSet) : Agr :=
  { Agr.reset with
    table := Table.ofSet view (unheard none), known := founding, agreement := if participant then .inStep else .outside }

/-- R79, R82, R99: members removed from the view. -/
def Agr.removeMembers (a : Agr) (gone : StationSet) : Agr :=
  { a with table := Table.dropSet a.table gone, inStep := without a.inStep gone }

/-- R79: a member added to the view, with the participant flag a JOIN packet carried at the inviter. -/
def Agr.addMember (a : Agr) (n : Station) (participant : Option Bool) : Agr :=
  { a with table := Table.set a.table n.val (unheard participant) }

/-- R76: the READY command. -/
def readyCommand (n : Seq) (s : State) : State × Response :=
  if !s.inView then (s, .refused .state)
  else if n ≤ s.agr.l ∨ n ≤ s.agr.r then (s, .refused .stale)
  else (s.onAgr (fun a => { a with r := n }), .done [])

end Sys2Proof.Machine
end

