-- ==== Sys2Proof/Machine/Palette.lean ====
section
/-! DEFINITION. The Palette Unit (chapter 6): bank and applications, credits, divergence, asking, answering and installing. -/

namespace Sys2Proof.Machine

/-- The capacities of the pending store and the outbound palette queue (R104, R107). -/
def storeCapacity : Nat := 16
def outboundCapacity : Nat := 4

/-! ### The bank and the applications (R109, R110, R174) -/

/-- The writes of a list of records, in pending order. -/
def recordWrites (rs : List UpdateRecord) : List (Nat × Color) :=
  rs.flatMap (fun r => runWrites r.start.toNat r.entries)

/-- The writes of the running application that are still to come. -/
def Pal.runningWrites (p : Pal) : List (Nat × Color) :=
  match p.applications with
  | [] => []
  | a :: _ => a.writes

/-- The bank as the running application leaves it, as READ PALETTE reports it (R103). -/
def Pal.settledBank (p : Pal) : Memory := p.bank.writeAll p.runningWrites

/-- The bank with the SNAPSHOT part last heard written whole (R174). -/
def Pal.installedBank (p : Pal) : Memory := p.bank.writeAll p.installing

/-- The bank as an answer carries it: the part last heard written whole, and each entry as the running application leaves it
(R118). -/
def Pal.answerBank (p : Pal) : Memory := p.installedBank.writeAll p.runningWrites

/-- The bank after the entry being written: what a RESTART command or a reset leaves of a running application (R174), and of the
installation of a part (log 9). -/
def Pal.stoppedBank (p : Pal) : Memory := (p.bank.writeAll (p.installing.take 1)).writeAll (p.runningWrites.take 1)

/-- The records due against a live sequence (R109). -/
def Pal.due (p : Pal) (l : Seq) : List UpdateRecord := p.store.filter (fun r => r.effective ≤ l)

/-- The due records leave the store and an application of them begins, or waits for the one running (R109, R110). A part last
heard stands in the bank whole before it: an installation and an application never run together (R174; log 9). -/
def Pal.beginApplication (p : Pal) (l : Seq) (present : Bool) : Pal :=
  { p with
    bank := p.installedBank
    installing := []
    store := p.store.filter (fun r => !decide (r.effective ≤ l))
    applications := p.applications ++ [{ writes := recordWrites (p.due l), present := present }] }

/-- R109: whether an application takes place at a frame pulse. -/
def Pal.applies (p : Pal) (l : Seq) : Bool := p.state == .normal && !p.deferral && !(p.due l).isEmpty

/-- R109, R110: the PAL's part of a frame pulse with the L the present decision leaves. -/
def Pal.pulse (p : Pal) (l : Seq) (presented : Bool) : Pal × List EventRecord :=
  if p.applies l then (p.beginApplication l presented, [])
  else if p.deferral && !(p.due l).isEmpty then (p, [{ kind := .paletteLate, sequence := some l }])
  else (p, [])

/-- R110: the deferral mark is cleared and every record then due is applied, with no PRESENT pulse. -/
def Pal.endDeferral (p : Pal) (l : Seq) : Pal :=
  let p' := { p with answer := none }
  if p'.applies l then p'.beginApplication l false else p'

/-- R174: the running application writes its last entry; the next one begins. -/
def Pal.completeApplication (p : Pal) : Pal :=
  match p.applications with
  | [] => p
  | a :: rest => { p with bank := p.bank.writeAll a.writes, applications := rest }

/-- Whether a PRESENT pulse rises when the running application completes (R173). -/
def Pal.presentDue (p : Pal) : Bool :=
  match p.applications with
  | [] => false
  | a :: _ => a.present

/-- R175: what a lookup samples: an entry being written, by an application or by the installation of a part, reads as the old or
the new entry whole, as `newer` says. -/
def Pal.lookup (p : Pal) (i : Nat) (newer : Bool) : Color :=
  if newer then p.stoppedBank.read i else p.bank.read i

/-! ### Credits (R106) -/

/-- The credit record of a member. -/
def creditOf (t : Table Nat) (n : Station) : Nat := (Table.get? t n.val).getD 0

/-- A member's record is set; a station without a record gets none. -/
def setCredit (t : Table Nat) (n : Station) (v : Nat) : Table Nat := t.mapAll (fun i c => if i = n.val then v else c)

/-- Every record falls by 1 (R106). -/
def lowerAll (t : Table Nat) : Table Nat := t.mapAll (fun _ c => c - 1)

/-- Every record but the station's own becomes 0 (R25). -/
def zeroOthers (own : Station) (t : Table Nat) : Table Nat := t.mapAll (fun i c => if i = own.val then c else 0)

/-- R107: the advertised palette credit. -/
def Pal.advertised (p : Pal) : Nat := if p.state = .normal then storeCapacity - p.store.length else 0

/-! ### Divergence (R111, R112) -/

/-- R112: the stores are emptied and the candidate record reset; E, the bank and the running application stay. -/
def Pal.diverge (p : Pal) : Pal :=
  { p with state := .resync, store := [], outbound := [], owed := none, candidate := none, outstanding := false, wait := none,
           install := none, answer := none }

/-- The PALETTE DIVERGED event. -/
def divergedEvent (src : Station) (r : Reason) : EventRecord := { kind := .paletteDiverged, station := some src, reason := some r }

/-- R108: the divergence reason of a PALETTE packet heard in NORMAL, none when its record is appended. -/
def Pal.judge (p : Pal) : Payload UpdateRecord → Option Reason
  | .failed _ => some .check
  | .good r =>
    if 512 < r.start.toNat + r.entries.length then some .check
    else if r.serial ≠ p.e then some .serial
    else if storeCapacity ≤ p.store.length then some .full
    else none

/-- A record joins the tail of the pending store. -/
def Pal.append (p : Pal) (r : UpdateRecord) : Pal := { p with store := p.store ++ [r] }

/-- R106, R108: a readable PALETTE packet, credit records lowered first. -/
def Pal.hearPalette (p : Pal) (src : Station) (b : Payload UpdateRecord) : Pal × List EventRecord :=
  let p := { p with credits := lowerAll p.credits }
  if p.state ≠ .normal then (p, [])
  else match p.judge b, b with
    | some r, _ => (p.diverge, [divergedEvent src r])
    | none, .good rec => ({ p.append rec with e := p.e + 1 }, [])
    | none, .failed _ => (p, [])

/-- R106, R111: a good STATUS packet of a member, the credit record first. -/
def Pal.hearStatus (p : Pal) (src : Station) (b : StatusBody) : Pal × List EventRecord :=
  let p := { p with credits := setCredit p.credits src (min storeCapacity b.paletteCredit.toNat) }
  if p.state == .normal && b.palette == .normal && serialBehind p.e b.e then (p.diverge, [divergedEvent src .ahead]) else (p, [])

/-! ### Asking (R113 to R116) -/

/-- The stations that may be asked: other members whose entries are heard and show NORMAL (R113). -/
def qualifies (own : Station) (view : StationSet) (a : Agr) (n : Station) : Bool :=
  n != own && inSet n view &&
    (match a.entry n with
     | some ⟨_, some rep⟩ => rep.palette == .normal
     | _ => false)

/-- R113: the snapshot candidate. -/
def Pal.choice (p : Pal) (own : Station) (view : StationSet) (a : Agr) : Option Station :=
  match p.candidate with
  | none => (members view).find? (qualifies own view a)
  | some c => (upFrom c).find? (qualifies own view a)

/-- R115, R121: the request ends and the candidate counts as having refused. -/
def Pal.endRequest (p : Pal) : Pal :=
  { p with
    outstanding := false, wait := none, install := none
    state := if p.state = .receiving then .resync else p.state
    store := if p.state = .receiving then [] else p.store }

/-- R116: whether the station declares its own bank authoritative, asked at a choice after its own STATUS packet. -/
def selfAuthority (s : State) : Bool :=
  s.startup.life == .member && s.pal.state == .resync && (s.pal.choice s.number s.mem.view s.agr).isNone &&
    (members s.mem.view).all (fun n => match s.agr.entry n with
      | some ⟨_, some _⟩ => true
      | _ => false) &&
    (members s.mem.view).find? (fun n => match s.agr.entry n with
      | some ⟨_, some rep⟩ => rep.palette != .normal
      | _ => false) == some s.number

/-- R116: the declaration; E and the bank stay. -/
def declareAuthority (s : State) : State :=
  if selfAuthority s then
    (s.onPal (fun p => { p with state := .normal, store := [], candidate := none, outstanding := false, wait := none,
                                install := none })).raise
      { kind := .paletteResynced, station := some s.number, sequence := some s.agr.l, reason := some .self }
  else s

/-! ### Answering (R117 to R119) -/

/-- R117: the ACK result of a SNAPSHOT REQUEST packet. -/
def Pal.judgeRequest (p : Pal) : AckResult :=
  if p.state ≠ .normal then .refusedState else if p.owed.isSome then .refusedBusy else .accepted

/-- R118: S, E0 and n are taken when part 0 is granted. -/
def Pal.startAnswer (p : Pal) (l : Seq) : Pal :=
  match p.answer with
  | some _ => p
  | none => { p with answer := some { s := l, e0 := p.e, n := p.store.length, next := 0 } }

/-- The entries of part k, 64 from index 64 × k (R118). -/
def partEntries (m : Memory) (k : Nat) : List Color := (List.range 64).map (fun i => m.read (64 * k + i))

/-- R118: the next packet of the answer being sent, addressed to the requester and carrying the request tag. -/
def Pal.answerPacket (p : Pal) (own : Station) : Option Packet :=
  match p.owed, p.answer with
  | some o, some a =>
    let h : Head := { source := own, dest := .station o.requester, tag := o.tag, corrected := false }
    if a.next < 8 then
      some (.snapshot h (byte a.next) (.good
        { lead := if a.next = 0 then some { s := a.s, e0 := a.e0, n := byte a.n } else none
          entries := partEntries p.answerBank a.next }))
    else (p.store[a.next - 8]?).map (fun r => .replay h (.good r))
  | _, _ => none

/-- R119: after a packet of the answer is sent; the last one clears the record and the deferral mark (R110). -/
def Pal.answerSent (p : Pal) (l : Seq) : Pal :=
  match p.answer with
  | none => p
  | some a =>
    if a.next + 1 < 8 + a.n then { p with answer := some { a with next := a.next + 1 } }
    else { p with owed := none }.endDeferral l

/-- R51, R119: a packet of the answer is cut off; the answer ends and is not resumed. -/
def Pal.cutAnswer (p : Pal) (l : Seq) : Pal :=
  match p.answer with
  | none => p
  | some _ => { p with owed := none }.endDeferral l

/-! ### Installing (R120, R121) -/

/-- The packet comes from the accepted candidate to this station with the tag of the outstanding request (R120). -/
def Pal.ofAnswer (p : Pal) (own : Station) (h : Head) : Bool :=
  p.outstanding && p.candidate == some h.source && h.dest == .station own && h.tag == p.requestTag

/-- The serial replay i, counted from 0, must carry (R120). -/
def Install.serial (i : Install) : Serial := i.e0 - BitVec.ofNat 16 i.n + BitVec.ofNat 16 i.replays

/-- Whether a packet heard in RECEIVING is the next packet of the answer (R120, R121). -/
def Pal.isNext (p : Pal) (own : Station) : Packet → Bool
  | .snapshot h part (.good _) =>
    p.ofAnswer own h &&
      (match p.install with
       | some i => decide (i.nextPart < 8) && decide (part.toNat = i.nextPart)
       | none => false)
  | .replay h (.good r) =>
    p.ofAnswer own h &&
      (match p.install with
       | some i => decide (i.nextPart = 8) && decide (i.replays < i.n) && r.serial == i.serial &&
           decide (r.start.toNat + r.entries.length ≤ 512)
       | none => false)
  | _ => false

/-- A part 1 to 7 or a replay of the awaited answer, heard before part 0 (R121, last sentence). -/
def Pal.outOfTurn (p : Pal) (own : Station) : Packet → Bool
  | .snapshot h part _ => p.ofAnswer own h && decide (1 ≤ part.toNat) && decide (part.toNat ≤ 7)
  | .replay h _ => p.ofAnswer own h
  | _ => false

/-- R121: what any readable packet does to an awaited answer before the units act on it. -/
def Pal.breakAnswer (p : Pal) (own : Station) (k : Packet) : Pal :=
  match p.state with
  | .receiving => if p.isNext own k then p else p.endRequest
  | .resync => if p.outOfTurn own k then p.endRequest else p
  | .normal => p

/-- R121: an unreadable packet fails an installation in progress. -/
def Pal.breakUnreadable (p : Pal) : Pal := if p.state = .receiving then p.endRequest else p

/-- R121: the installation completes once part 7 and the n replays are in. -/
def Pal.complete (p : Pal) : Pal × List EventRecord :=
  match p.install with
  | some i =>
    if p.state = .receiving ∧ i.nextPart = 8 ∧ i.replays = i.n then
      ({ p with state := .normal, e := i.e0, wait := none, outstanding := false, candidate := none, install := none },
       [{ kind := .paletteResynced, station := p.candidate, sequence := some i.s }])
    else (p, [])
  | none => (p, [])

/-- The writes of SNAPSHOT part k (R120). -/
def partWrites (k : Nat) (entries : List Color) : List (Nat × Color) := runWrites (64 * k) (entries.take 64)

/-- R120, R174: the installation of part k begins: its entries are to be written, one every 20 ns. Parts are at least 174.08 µs
apart, so the part before it is written by then (log 9). -/
def Pal.installPart (p : Pal) (k : Nat) (entries : List Color) : Pal :=
  { p with bank := p.installedBank, installing := partWrites k entries }

/-- R120: a SNAPSHOT part of the awaited answer, after `breakAnswer`. -/
def Pal.hearSnapshot (p : Pal) (own : Station) (h : Head) (part : Byte) : Payload SnapshotBody → Pal × List EventRecord
  | .failed _ => (p, [])
  | .good b =>
    if !p.ofAnswer own h then (p, [])
    else match p.state, p.install, b.lead with
      | .resync, _, some lead =>
        if part = 0 ∧ lead.n.toNat ≤ 16 then
          ({ p.installPart 0 b.entries with
             state := .receiving
             install := some { s := lead.s, e0 := lead.e0, n := lead.n.toNat, nextPart := 1, replays := 0 } }, [])
        else (p, [])
      | .receiving, some i, _ =>
        { p.installPart part.toNat b.entries with install := some { i with nextPart := i.nextPart + 1 } }.complete
      | _, _, _ => (p, [])

/-- R120: a REPLAY packet of the awaited answer, after `breakAnswer`. -/
def Pal.hearReplay (p : Pal) (own : Station) (h : Head) : Payload UpdateRecord → Pal × List EventRecord
  | .failed _ => (p, [])
  | .good r =>
    if !p.ofAnswer own h then (p, [])
    else match p.state, p.install with
      | .receiving, some i => { p.append r with install := some { i with replays := i.replays + 1 } }.complete
      | _, _ => (p, [])

/-! ### The view and the commands -/

/-- R122: the PAL's leave-view actions; the bank, the writes under way and the request tag are kept. -/
def Pal.leave (p : Pal) : Pal :=
  { Pal.reset p.bank with installing := p.installing, applications := p.applications, requestTag := p.requestTag }

/-- R122: the PAL's enter-view actions; the bank, the writes under way and the request tag are kept. -/
def Pal.enter (p : Pal) (founding : Bool) (view : StationSet) : Pal :=
  { p.leave with credits := Table.ofSet view 0, state := if founding then .normal else .resync }

/-- R118, R119, R122: an owed answer to a lost requester is dropped; one already begun goes on (log 35). -/
def Pal.dropOwed (p : Pal) (lost : Station → Bool) : Pal :=
  { p with owed := match p.answer with
      | none => p.owed.filter (fun o => !lost o.requester)
      | some _ => p.owed }

/-- R115, R122: members removed from the view. -/
def Pal.removeMembers (p : Pal) (gone : StationSet) : Pal :=
  let p := { p with credits := Table.dropSet p.credits gone }.dropOwed (fun n => inSet n gone)
  if p.outstanding && (match p.candidate with
      | some c => inSet c gone
      | none => false) then p.endRequest else p

/-- R106: a member added to the view. -/
def Pal.addMember (p : Pal) (n : Station) : Pal := { p with credits := Table.set p.credits n.val 0 }

/-- R103: the READ PALETTE command. -/
def readPaletteCommand (start : BitVec 16) (count : Byte) (s : State) : State × Response :=
  if !runFits start.toNat count.toNat 32 512 then (s, .refused .range)
  else (s, .done ([paletteCode s.pal.state] ++ bytesOfSerial s.pal.e ++ [byte s.pal.store.length, byte s.pal.outbound.length] ++
    (List.range count.toNat).flatMap (fun i => wordOfColor (s.pal.settledBank.read (start.toNat + i)))))

/-- R104: the SUBMIT PALETTE command; the count is the number of entry words. -/
def submitPaletteCommand (effective : Seq) (start : BitVec 16) (words : List Value) (s : State) : State × Response :=
  if s.startup.life ≠ .member ∨ s.pal.state ≠ .normal then (s, .refused .state)
  else if !runFits start.toNat words.length 64 512 then (s, .refused .range)
  else if outboundCapacity ≤ s.pal.outbound.length then (s, .refused .full)
  else
    (s.onPal (fun p => { p with
      outbound := p.outbound ++ [{ effective := effective, start := start, entries := words.map colorOfWord }] }),
     .queued (byte (s.pal.outbound.length + 1)))

end Sys2Proof.Machine
end

