-- ==== Sys2Proof/Machine/Attributes.lean ====
section
/-! DEFINITION. The Attribute Unit (chapter 7): the attribute table, remote requests of this station, requests of peers. -/

namespace Sys2Proof.Machine

/-- The capacities of the request table and the pending-return queue (chapter 7). -/
def requestCapacity : Nat := 4
def returnCapacity : Nat := 4

/-- The attempts after which a request fails (R131). -/
def requestAttempts : Nat := 4

/-! ### The attribute table (R125 to R129) -/

/-- The record of an index 8 to 63 that nothing has written since the reset (R129). -/
def AttrRecord.blank : AttrRecord := { value := 0, writer := .localPort }

/-- A field placed at a bit position of an attribute value. -/
def field (n shift : Nat) : Value := BitVec.ofNat 32 (n * 2 ^ shift)

/-- The value the part forms for an index 0 to 7 (R126; section 11.6). -/
def partValue (s : State) (i : Nat) : Value :=
  match i with
  | 0 => field s.startup.number.val 24 + field s.startup.life.code.toNat 16 + field s.pos.state.code.toNat 12
      + field s.agr.agreement.code.toNat 8 + field (paletteCode s.pal.state).toNat 0
  | 1 => s.mem.view
  | 2 => s.agr.l.extractLsb' 0 32
  | 3 => s.agr.r.extractLsb' 0 32
  | 4 => s.agr.c.extractLsb' 0 32
  | 5 => field (s.agr.l.extractLsb' 32 8).toNat 16 + field (s.agr.r.extractLsb' 32 8).toNat 8
      + field (s.agr.c.extractLsb' 32 8).toNat 0
  | 6 => field s.pal.e.toNat 16 + field s.pal.store.length 0
  | 7 => field s.msg.inbound.length 16 + field s.msg.priority.length 8 + field s.msg.bulk.length 0
  | _ => 0

/-- An attribute record as it reads now (R125). Records 0 to 7 are formed from the state as it stands, also right after a reset,
where R129 gives every record the value 0 (R126; log 33). -/
def readAttr (s : State) (i : Nat) : AttrRecord :=
  if i < 8 then { value := partValue s i, writer := .part } else (Table.get? s.att.table i).getD AttrRecord.blank

/-- A record is written whole; one that equals the reset record is not listed. -/
def Att.write (a : Att) (i : Nat) (r : AttrRecord) : Att :=
  { a with table := if r = AttrRecord.blank then Table.erase a.table i else Table.set a.table i r }

/-- R127: the READ ATTRIBUTE command. -/
def readAttributeCommand (start count : Byte) (s : State) : State × Response :=
  if !runFits start.toNat count.toNat 16 64 then (s, .refused .range)
  else (s, .done ((List.range count.toNat).flatMap (fun i =>
    let r := readAttr s (start.toNat + i)
    bytesOfValue r.value ++ [r.writer.code])))

/-- R128: the WRITE ATTRIBUTE command. -/
def writeAttributeCommand (index : Byte) (value : Value) (s : State) : State × Response :=
  if s.startup.life = .unconfigured then (s, .refused .state)
  else if index.toNat < 8 ∨ 63 < index.toNat then (s, .refused .range)
  else (s.onAtt (fun a => a.write index.toNat { value := value, writer := .localPort }), .done [])

/-! ### Requests of this station (R130 to R134) -/

/-- A request that has not finished. -/
def Request.unfinished (r : Request) : Bool :=
  match r.state with
  | .queued => true
  | .awaitingReturn _ => true
  | .done _ => false
  | .failed _ => false

/-- The REQUEST DONE event of an entry. -/
def Request.doneEvent (r : Request) : EventRecord := { kind := .requestDone, station := some r.target, tag := some r.tag }

/-- The REQUEST FAILED event of an entry. -/
def Request.failedEvent (r : Request) (why : Reason) : EventRecord :=
  { kind := .requestFailed, station := some r.target, tag := some r.tag, reason := some why }

/-- The entry that holds a tag. -/
def Att.find (a : Att) (tag : Byte) : Option Request := a.requests.find? (fun r => r.tag = tag)

/-- The entry that holds a tag is replaced. -/
def Att.update (a : Att) (tag : Byte) (f : Request → Request) : Att :=
  { a with requests := a.requests.map (fun r => if r.tag = tag then f r else r) }

/-- R130: the first tag from the counter upward that no entry holds. -/
def Att.freeTag (a : Att) : Byte :=
  (((List.range 5).map (fun i => a.tagCounter + byte i)).find? (fun t => (a.find t).isNone)).getD a.tagCounter

/-- R130: an entry is made in QUEUED and the counter moves past its tag. -/
def Att.enqueue (a : Att) (target : Station) (k : RequestKind) : Att :=
  { a with
    requests := a.requests ++
      [{ tag := a.freeTag, kind := k, target := target, attempts := 0, state := .queued, corrected := false }]
    tagCounter := a.freeTag + 1 }

/-- R130: the judgement REMOTE READ and REMOTE WRITE share. -/
def remoteCommand (target : Byte) (inRange : Bool) (k : RequestKind) (s : State) : State × Response :=
  if s.startup.life ≠ .member then (s, .refused .state)
  else match stationOf target with
    | none => (s, .refused .notMember)
    | some n =>
      if !inSet n s.mem.view || n == s.number then (s, .refused .notMember)
      else if !inRange then (s, .refused .range)
      else if requestCapacity ≤ s.att.requests.length then (s, .refused .full)
      else (s.onAtt (fun a => a.enqueue n k), .queued s.att.freeTag)

/-- R131: the oldest QUEUED entry not yet sent in this possession. -/
def Att.offer (a : Att) (sent : List Byte) : Option Request :=
  a.requests.find? (fun r => decide (r.state = .queued) && !sent.contains r.tag)

/-- The READ or WRITE packet of an entry (R131). -/
def Request.packet (r : Request) (own : Station) : Packet :=
  let h : Head := { source := own, dest := .station r.target, tag := r.tag, corrected := false }
  match r.kind with
  | .read start count => .read h start count none
  | .write index value => .write h index value none

/-- R131: an attempt that failed: back in QUEUED, or FAILED at the fourth. -/
def Request.retryOr (r : Request) (why : Reason) : Request × List EventRecord :=
  if r.attempts < requestAttempts then (r, []) else ({ r with state := .failed why }, [r.failedEvent why])

/-- R131: what the ACK of the reply slot makes of the entry; `none` is NO REPLY. -/
def Request.outcome (r : Request) : Option AckResult → Request × List EventRecord
  | some .accepted =>
    match r.kind with
    | .read _ _ => ({ r with state := .awaitingReturn 0 }, [])
    | .write _ _ => ({ r with state := .done [] }, [r.doneEvent])
  | some .refusedRange => ({ r with state := .failed .range }, [r.failedEvent .range])
  | some .refusedReadOnly => ({ r with state := .failed .readOnly }, [r.failedEvent .readOnly])
  | some .refusedBusy => r.retryOr .busy
  | _ => r.retryOr .noReply

/-- R131: the outcome of the slot for the entry that holds a tag, its header-corrected flag copied first. -/
def Att.slotEnds (a : Att) (tag : Byte) (result : Option AckResult) (corrected : Bool) : Att × List EventRecord :=
  match a.find tag with
  | none => (a, [])
  | some r =>
    let r := if result.isSome then { r with corrected := corrected } else r
    (a.update tag (fun _ => (r.outcome result).1), (r.outcome result).2)

/-- R132: the values or the failure a READ RETURN packet gives an entry in AWAITING RETURN. -/
def Request.return (r : Request) (start count : Byte) : Payload (List Value) → Request × List EventRecord
  | .good values =>
    if r.kind = .read start count then ({ r with state := .done values }, [r.doneEvent])
    else ({ r with state := .failed .check }, [r.failedEvent .check])
  | .failed _ => ({ r with state := .failed .check }, [r.failedEvent .check])

/-- Whether an entry waits for its return. -/
def Request.awaits (r : Request) : Bool :=
  match r.state with
  | .awaitingReturn _ => true
  | _ => false

/-- R132: a READ RETURN packet addressed to this station; one that matches no entry in AWAITING RETURN is discarded. -/
def Att.hearReturn (a : Att) (h : Head) (start count : Byte) (p : Payload (List Value)) : Att × List EventRecord :=
  match a.find h.tag with
  | none => (a, [])
  | some r =>
    if r.awaits && r.target == h.source then
      (a.update h.tag (fun _ => (r.return start count p).1), (r.return start count p).2)
    else (a, [])

/-- R132: the request timeout of an entry expires. -/
def Att.timeout (a : Att) (tag : Byte) : Att × List EventRecord :=
  match a.find tag with
  | none => (a, [])
  | some r =>
    if r.awaits then (a.update tag (fun r => { r with state := .failed .timeout }), [r.failedEvent .timeout]) else (a, [])

/-- R133: the unfinished entries that a test picks become FAILED, their events in order of age. -/
def Att.failAll (a : Att) (pick : Request → Bool) (why : Reason) : Att × List EventRecord :=
  ({ a with requests := a.requests.map (fun r => if r.unfinished && pick r then { r with state := .failed why } else r) },
   (a.requests.filter (fun r => r.unfinished && pick r)).map (fun r => r.failedEvent why))

/-- The bytes of a TAKE RESULT response (R134, R178); the count byte of a WRITE is a free value (log 7), and nothing follows the
header-corrected flag of a WRITE that is DONE (log 32). -/
def Request.resultBytes (r : Request) (free : Nat) : List Byte :=
  let ask := match r.kind with
    | .read start count => [(0 : Byte), byte r.target.val, start, count]
    | .write index _ => [(1 : Byte), byte r.target.val, index, Config.writeCount free]
  let out := match r.state with
    | .done values => [(2 : Byte), flagByte r.corrected] ++ values.flatMap bytesOfValue
    | .failed why => [(3 : Byte), flagByte r.corrected, why.code]
    | .queued => []
    | .awaitingReturn _ => []
  ask ++ [byte r.attempts] ++ out

/-- R134: the TAKE RESULT command. -/
def takeResultCommand (tag : Byte) (s : State) : State × Response :=
  match s.att.find tag with
  | none => (s, .refused .range)
  | some r =>
    if r.unfinished then (s, .refused .state)
    else ((s.onAtt (fun a => { a with requests := a.requests.filter (fun q => q.tag ≠ tag) })).useFree 1,
          .done (r.resultBytes s.free))

/-! ### Requests of peers (R135 to R137) -/

/-- R135: the ACK result of a READ packet. -/
def Att.judgeRead (a : Att) (start count : Byte) : AckResult :=
  if !runFits start.toNat count.toNat 16 64 then .refusedRange
  else if returnCapacity ≤ a.returns.length then .refusedBusy
  else .accepted

/-- R135: an accepted READ joins the pending-return queue. -/
def Att.hearRead (a : Att) (h : Head) (start count : Byte) : Att :=
  if a.judgeRead start count = .accepted then
    { a with returns := a.returns ++ [{ requester := h.source, tag := h.tag, start := start, count := count }] }
  else a

/-- R136: the READ RETURN packet of an entry, its values read at the grant. -/
def returnPacket (s : State) (r : Return) : Packet :=
  .readReturn { source := s.number, dest := .station r.requester, tag := r.tag, corrected := false } r.start r.count
    (.good ((List.range r.count.toNat).map (fun i => (readAttr s (r.start.toNat + i)).value)))

/-- R136: entries at the head whose requester is not in the view are dropped unsent. -/
def Att.dropStale (a : Att) (view : StationSet) : Att :=
  { a with returns := a.returns.dropWhile (fun r => !inSet r.requester view) }

/-- R137: the ACK result of a WRITE packet. -/
def judgeWrite (index : Byte) : AckResult :=
  if index.toNat < 32 then .refusedReadOnly else if 63 < index.toNat then .refusedRange else .accepted

/-- R137: an accepted WRITE is applied when it is heard. -/
def Att.hearWrite (a : Att) (h : Head) (index : Byte) (value : Value) : Att × List EventRecord :=
  if judgeWrite index = .accepted then
    (a.write index.toNat { value := value, writer := .peer h.source },
     [{ kind := .attributeWritten, station := some h.source, tag := some index }])
  else (a, [])

/-! ### The view (R133, R138) -/

/-- R138: entering the view empties the request table, with no event. -/
def Att.enter (a : Att) : Att := { a with requests := [], returns := [] }

/-- R133, R138: leaving the view. -/
def Att.leave (a : Att) : Att × List EventRecord :=
  ({ a with returns := [] }.failAll (fun _ => true) .left)

/-- R133, R136: members removed from the view. -/
def Att.removeMembers (a : Att) (gone : StationSet) : Att × List EventRecord :=
  ({ a with returns := a.returns.filter (fun r => !inSet r.requester gone) }.failAll
    (fun r => inSet r.target gone) .targetLost)

end Sys2Proof.Machine
end

