-- ==== Sys2Proof/Machine/Messages.lean ====
section
/-! DEFINITION. The Message Unit (chapter 8): queuing, credits, sending and retrying, receiving. -/

namespace Sys2Proof.Machine

/-- The capacities of the three queues (chapter 8). -/
def priorityCapacity : Nat := 4
def bulkCapacity : Nat := 8
def inboundCapacity : Nat := 8

/-- The attempts after which a message fails (R145). -/
def messageAttempts : Nat := 3

/-- The station field of an event about an outbound message: absent for ALL (R155). -/
def destStation : Dest → Option Station
  | .station n => some n
  | .all => none

/-- An event about an outbound message. -/
def OutMessage.event (m : OutMessage) (k : EventKind) (why : Option Reason) : EventRecord :=
  { kind := k, station := destStation m.dest, tag := some m.tag, reason := why }

/-- The queue of a class holds its capacity (R141). -/
def Msg.full (g : Msg) : MessageClass → Bool
  | .priority => decide (priorityCapacity ≤ g.priority.length)
  | .bulk => decide (bulkCapacity ≤ g.bulk.length)

/-- R141: a record joins the tail of its class queue and the tag counter advances. -/
def Msg.enqueue (g : Msg) (c : MessageClass) (d : Dest) (stream : BitVec 2) (ack : Bool) (payload : List Byte) : Msg :=
  let m : OutMessage :=
    { tag := g.tagCounter, dest := d, stream := stream, ack := ack && decide (d ≠ .all), payload := payload, attempts := 0 }
  match c with
  | .priority => { g with priority := g.priority ++ [m], tagCounter := g.tagCounter + 1 }
  | .bulk => { g with bulk := g.bulk ++ [m], tagCounter := g.tagCounter + 1 }

/-- R141: a station destination that is not another member. -/
def notMember (s : State) : Option Dest → Bool
  | some (.station n) => !inSet n s.mem.view || n == s.number
  | _ => false

/-- R141: the payload size a class admits. -/
def payloadFits (c : MessageClass) (payload : List Byte) : Bool :=
  decide (1 ≤ payload.length) && decide (payload.length ≤ c.limit)

/-- R141, R178: the SEND MESSAGE command. -/
def sendMessageCommand (dest stream ack cls : Byte) (payload : List Byte) (s : State) : State × Response :=
  if s.startup.life ≠ .member then (s, .refused .state)
  else if notMember s (destOfByte dest) then (s, .refused .notMember)
  else match destOfByte dest, messageClassOf cls with
    | some d, some c =>
      if !payloadFits c payload || decide (3 < stream.toNat) then (s, .refused .range)
      else if s.msg.full c then (s, .refused .full)
      else (s.onMsg (fun g => g.enqueue c d (stream.setWidth 2) (ack != 0) payload), .queued s.msg.tagCounter)
    | _, _ => (s, .refused .range)

/-! ### Credits (R142 to R144) -/

/-- R143: the advertised message credit. -/
def Msg.advertised (g : Msg) : Nat := inboundCapacity - g.inbound.length

/-- R142: a MESSAGE packet heard lowers the record of its destination, or every record but the source's. -/
def lowerFor (t : Table Nat) (source : Station) : Dest → Table Nat
  | .station d => t.mapAll (fun i c => if i = d.val then c - 1 else c)
  | .all => t.mapAll (fun i c => if i = source.val then c else c - 1)

/-- R142: a good STATUS packet of a member. -/
def Msg.hearStatus (g : Msg) (src : Station) (b : StatusBody) : Msg :=
  { g with credits := setCredit g.credits src (min inboundCapacity b.messageCredit.toNat) }

/-- R144: whether the credit records let a message go. -/
def Msg.hasRoom (g : Msg) (own : Station) (view : StationSet) : Dest → Bool
  | .station d => decide (1 ≤ creditOf g.credits d)
  | .all => (members (removeFrom own view)).all (fun n => decide (1 ≤ creditOf g.credits n))

/-! ### Sending (R144 to R147) -/

/-- The MESSAGE packet of a record (R144). -/
def OutMessage.packet (m : OutMessage) (own : Station) : Packet :=
  .message { source := own, dest := m.dest, tag := m.tag, corrected := false } m.ack m.stream (.good m.payload)

/-- R144: the head of a queue, if no retry record exists and its destination has room. -/
def Msg.offer (g : Msg) (own : Station) (view : StationSet) (q : List OutMessage) : Option OutMessage :=
  match g.retry, q with
  | none, m :: _ => if g.hasRoom own view m.dest then some m else none
  | _, _ => none

/-- R146: the retry record, if its destination has room. -/
def Msg.offerRetry (g : Msg) (own : Station) (view : StationSet) : Option OutMessage :=
  match g.retry with
  | some m => if g.hasRoom own view m.dest then some m else none
  | none => none

/-- A record sent once more. -/
def OutMessage.sentOnce (m : OutMessage) : OutMessage := { m with attempts := m.attempts + 1 }

/-- R145: a record out of its queue either waits in the slot or is finished with MESSAGE SENT. -/
def Msg.sendHead (g : Msg) (m : OutMessage) : Msg × List EventRecord :=
  if m.ack then ({ g with held := some m.sentOnce }, []) else (g, [m.event .messageSent none])

/-- R144, R145: the head of the priority queue has been sent. -/
def Msg.sentPriority (g : Msg) : Msg × List EventRecord :=
  match g.priority with
  | m :: rest => { g with priority := rest }.sendHead m
  | [] => (g, [])

/-- R144, R145: the head of the bulk queue has been sent. -/
def Msg.sentBulk (g : Msg) : Msg × List EventRecord :=
  match g.bulk with
  | m :: rest => { g with bulk := rest }.sendHead m
  | [] => (g, [])

/-- R146: the retry record has been sent; it stays the retry record until it is discarded. -/
def Msg.sentRetry (g : Msg) : Msg := { g with retry := g.retry.map OutMessage.sentOnce }

/-- R145: what becomes of a record after a failed attempt. -/
def OutMessage.again (m : OutMessage) (why : Reason) : Option OutMessage × List EventRecord :=
  if m.attempts < messageAttempts then (some m, []) else (none, [m.event .messageFailed (some why)])

/-- R145: the outcome of the reply slot for a record: the retry record it becomes, if any, and the event. -/
def OutMessage.outcome (m : OutMessage) (corrected : Bool) : Option AckResult → Option OutMessage × List EventRecord
  | some .ok => (none, [m.event .messageDelivered (if corrected then some .corrected else none)])
  | some .streamClosed => (none, [m.event .messageFailed (some .streamClosed)])
  | some .payloadFailed => m.again .payloadFailed
  | some .queueFull => m.again .queueFull
  | _ => m.again .noReply

/-- R145: the slot of a message from its queue, or of the retry record, ends. -/
def Msg.slotEnds (g : Msg) (corrected : Bool) (result : Option AckResult) : Msg × List EventRecord :=
  match g.held, g.retry with
  | some m, _ => ({ g with held := none, retry := (m.outcome corrected result).1 }, (m.outcome corrected result).2)
  | none, some m => ({ g with retry := (m.outcome corrected result).1 }, (m.outcome corrected result).2)
  | none, none => (g, [])

/-! ### Receiving (R148 to R151) -/

/-- The duplicate filter's test (R149, R150): directed, and the tag equals the entry for the source. -/
def Msg.repeated (g : Msg) (h : Head) : Bool := decide (h.dest ≠ .all) && Table.get? g.filter h.source.val == some h.tag

/-- R149: the outcome of the checks as an ACK result; OK stands for delivery and for a repeat. -/
def Msg.judge (g : Msg) (openStreams : BitVec 4) (h : Head) (stream : BitVec 2) : Payload (List Byte) → AckResult
  | .failed _ => .payloadFailed
  | .good _ =>
    if !openStreams.getLsbD stream.toNat then .streamClosed
    else if g.repeated h then .ok
    else if inboundCapacity ≤ g.inbound.length then .queueFull
    else .ok

/-- R149: a delivered message joins the inbound queue; a directed one sets the duplicate filter. -/
def Msg.deliver (g : Msg) (h : Head) (stream : BitVec 2) (payload : List Byte) : Msg × List EventRecord :=
  let broadcast := decide (h.dest = .all)
  ({ g with
     inbound := g.inbound ++ [{ source := h.source, stream := stream, broadcast := broadcast, payload := payload }]
     filter := if broadcast then g.filter else Table.set g.filter h.source.val h.tag },
   [{ kind := .messageArrived, station := some h.source, tag := some h.tag,
      reason := if broadcast then some .broadcast else none }])

/-- R149: a message that goes through the checks. -/
def Msg.receive (g : Msg) (openStreams : BitVec 4) (h : Head) (stream : BitVec 2) (p : Payload (List Byte)) :
    Msg × List EventRecord :=
  match p with
  | .failed _ => (g, [])
  | .good payload =>
    if g.judge openStreams h stream p = .ok ∧ !g.repeated h then g.deliver h stream payload else (g, [])

/-- R148: addressed to this station or to ALL, from another member of the view. -/
def takesMessage (own : Station) (view : StationSet) (h : Head) : Bool :=
  (h.dest == .station own || h.dest == .all) && h.source != own && inSet h.source view

/-- R151: the TAKE MESSAGE command. -/
def takeMessageCommand (s : State) : State × Response :=
  match s.msg.inbound with
  | [] => (s, .refused .empty)
  | m :: rest =>
    (s.onMsg (fun g => { g with inbound := rest }),
     .done ([byte m.source.val, m.stream.setWidth 8, flagByte m.broadcast, byte m.payload.length] ++ m.payload ++
       [byte rest.length]))

/-! ### The view (R152, R153) -/

/-- R153: the MSG's enter-view actions. -/
def Msg.enter (g : Msg) (view : StationSet) : Msg :=
  { g with priority := [], bulk := [], retry := none, held := none, credits := Table.ofSet view 0, filter := [] }

/-- R153: the leave-view actions: the held record first, then retry, priority, bulk. -/
def Msg.leave (g : Msg) : Msg × List EventRecord :=
  ({ g with priority := [], bulk := [], retry := none, held := none, credits := [], filter := [] },
   (g.held.toList ++ g.retry.toList ++ g.priority ++ g.bulk).map (fun m => m.event .messageFailed (some .left)))

/-- Whether a record is directed to a station of a set. -/
def OutMessage.directedTo (m : OutMessage) (gone : StationSet) : Bool :=
  match m.dest with
  | .station d => inSet d gone
  | .all => false

/-- R152: members removed from the view. -/
def Msg.removeMembers (g : Msg) (gone : StationSet) : Msg × List EventRecord :=
  ({ g with
     retry := g.retry.filter (fun m => !m.directedTo gone)
     priority := g.priority.filter (fun m => !m.directedTo gone)
     bulk := g.bulk.filter (fun m => !m.directedTo gone)
     credits := Table.dropSet g.credits gone
     filter := Table.dropSet g.filter gone },
   ((g.retry.toList ++ g.priority ++ g.bulk).filter (fun m => m.directedTo gone)).map
     (fun m => m.event .messageFailed (some .destinationLost)))

/-- R142, R152: a member added to the view. -/
def Msg.addMember (g : Msg) (n : Station) : Msg := { g with credits := Table.set g.credits n.val 0 }

end Sys2Proof.Machine
end

