-- ==== Sys2Proof/Machine/Membership.lean ====
section
/-! DEFINITION. The Membership Unit (chapter 4) and the ways into and out of the view, with every unit's actions (chapter 1). -/

namespace Sys2Proof.Machine

/-- R62, R70: each unit's actions for members removed; the events of ATT and MSG have no stated order between them (R166). -/
def membersGone (gone : StationSet) (s : State) : State :=
  let a := s.att.removeMembers gone
  let g := s.msg.removeMembers gone
  ((((s.onAgr (fun x => x.removeMembers gone)).onPal (fun x => x.removeMembers gone)).onAtt (fun _ => a.1)).onMsg
    (fun _ => g.1)).raiseBoth a.2 g.2

/-- R62, R67: each unit's actions for a member added, with the participant flag known at the inviter alone (R79). -/
def memberCame (participant : Option Bool) (s : State) (n : Station) : State :=
  ((s.onAgr (fun x => x.addMember n participant)).onPal (fun x => x.addMember n)).onMsg (fun x => x.addMember n)

/-- The MEMBER REMOVED event (R74). -/
def removedEvent (why : Option Reason) (n : Station) : EventRecord := { kind := .memberRemoved, station := some n, reason := why }

/-- The MEMBER ADDED event (R74). -/
def addedEvent (n : Station) : EventRecord := { kind := .memberAdded, station := some n }

/-- The view is replaced. -/
def State.setView (s : State) (v : StationSet) : State := s.onMem (fun m => { m with view := v })

/-- R61, R62: a member adopts a view that contains it: all the membership events, ascending, then the units' actions. -/
def adopt (v : StationSet) (s : State) : State :=
  let gone := without s.mem.view v
  let came := without v s.mem.view
  let s := (s.setView v).raiseAll ((members gone).map (removedEvent none) ++ (members came).map addedEvent)
  (members came).foldl (memberCame none) (membersGone gone s)

/-- R67: the inviter adds the joiner. -/
def addJoiner (n : Station) (participant : Bool) (s : State) : State :=
  memberCame (some participant) ((s.setView (addTo n s.mem.view)).raise (addedEvent n)) n

/-- R70: a silent successor is removed. -/
def removeSilent (n : Station) (s : State) : State :=
  membersGone (single n) ((s.setView (removeFrom n s.mem.view)).raise (removedEvent (some .noAnswer) n))

/-- R68, R69: the station enters the view: MEM, the JOINED event, then every unit's enter-view actions. -/
def enterView (founding : Bool) (v : StationSet) (joined : EventRecord) (s : State) : State :=
  ((((((s.setLife .member).onMem (fun _ => { view := v, cursor := s.number, joinPending := false })).raise joined).onAgr
    (fun _ => Agr.enter s.cfg.participant founding v)).onPal (fun p => p.enter founding v)).onAtt (fun a => a.enter)).onMsg
      (fun g => g.enter v)

/-- R73: the view becomes empty and every unit takes its leave-view actions, the ATT's events before the MSG's (R153). -/
def leaveUnits (s : State) : State :=
  let a := s.att.leave
  let g := s.msg.leave
  ((((((s.setView 0).onAgr (fun _ => Agr.reset)).onPal (fun p => p.leave)).onAtt (fun _ => a.1)).onMsg (fun _ => g.1)).raiseAll
    a.2).raiseAll g.2

/-- A packet handed to the LIF but not yet driven is taken back. -/
def Lif.withdraw (l : Lif) : Lif :=
  { l with driver := match l.driver with
      | .waiting _ => .released
      | d => d }

/-- The possession is given up: the batch, the slot, the handover and their timers are discarded (R43, R56). -/
def Pos.discard (p : Pos) : Pos := { p with batch := Batch.idle, slot := none, handover := none, turnaround := none }

/-- The POS falls QUIET and keeps its fault record alone (R56, R57). -/
def Pos.quiet (p : Pos) : Pos := { Pos.reset with fault := p.fault }

/-- The receiver is switched off and the driver released (R16, R32); the line-busy indication stands, which holds the silence timer at 0
after the next GO until the first rearming (log 28). -/
def Lif.switchOff (l : Lif) : Lif := { l with receiver := .off, driver := .released, released := none }

/-- R9: a MEMBER is dropped by a HANDOVER packet from `source`. -/
def dropped (source : Station) (s : State) : State :=
  (leaveUnits (((s.setLife .joinPending).onMem (fun m => { m with joinPending := true })).raise
    { kind := .dropped, station := some source })).onLif Lif.withdraw |>.onPos
      (fun p => { p.discard with silence := 0, state := if p.state = .busHold then .busHold else .listening })

/-- R8: a LEAVING station's membership ends. -/
def leftWall (s : State) : State :=
  ((leaveUnits (((s.setLife .standby).onMem (fun m => { m with joinPending := false })).raise { kind := .left })).onLif
    Lif.switchOff).onPos Pos.quiet

/-- R10, R56: the station halts on its own number heard from elsewhere. -/
def halt (s : State) : State :=
  let h := (((s.setLife .halted).onMem (fun m => { m with joinPending := false })).raise
    { kind := .halted, reason := some .duplicateNumber })
  ((if s.inView then leaveUnits h else h).onLif Lif.withdraw).onPos Pos.quiet

end Sys2Proof.Machine
end

