-- ==== Sys2Proof/Machine/Scheduler.lean ====
section
/-! DEFINITION. The transmit scheduler of the Possession Unit: what each class offers and what is granted (R38 to R41). -/

namespace Sys2Proof.Machine

/-- A header with no correction, from this station. -/
def State.head (s : State) (d : Dest) (tag : Byte) : Head := { source := s.number, dest := d, tag := tag, corrected := false }

/-- A packet is handed to the LIF, which drives it once its guard has passed (R28). -/
def grant (tx : Tx) (s : State) : State := s.onLif (fun l => { l with driver := .waiting tx })

/-- Whether the packets of a class count against the hold budget: classes 2 and 4 to 11 (R41). -/
def TxClass.counted : TxClass → Bool
  | .commit => true
  | .readReturn => true
  | .snapshotRequest => true
  | .retry => true
  | .priority => true
  | .palette => true
  | .request => true
  | .bulk => true
  | .invite => true
  | .claim => false
  | .status => false
  | .answer => false
  | .handover => false
  | .leave => false
  | .leaveHandover => false
  | .reply => false

/-- R78: the STATUS packet, its contents fixed at the grant. -/
def statusBody (s : State) : StatusBody :=
  { l := s.agr.l, r := s.agr.r, c := s.agr.c, participant := s.cfg.participant, palette := s.pal.state
    paletteCredit := byte s.pal.advertised, messageCredit := byte s.msg.advertised, e := s.pal.e }

/-- Class 1 (R78). -/
def grantStatus (s : State) : State :=
  (grant { cls := .status, packet := .status (s.head .all 0) (.good (statusBody s)) } s).onPos
    (fun p => { p with batch := { p.batch with statusGranted := true } })

/-- Class 2 (R88). -/
def offerCommit (s : State) : Option Tx :=
  s.agr.pendingCommit.map (fun b => { cls := .commit, packet := .commit (s.head .all 0) (.good b) })

/-- Class 3: an answer is owed to a requester of the view, or is being sent (R118). -/
def answerOffered (s : State) : Bool :=
  s.pal.answer.isSome ||
    (match s.pal.owed with
     | some o => inSet o.requester s.mem.view
     | none => false)

/-- Class 4 (R136). -/
def offerReturn (s : State) : Option Tx :=
  s.att.returns.head?.map (fun r => { cls := .readReturn, packet := returnPacket s r })

/-- Class 5 (R114). Where a request ends inside the station's own possession before this class was used, it offers in that possession, by
R114's conditions, and not first in the next one, as R115 has it (the model's choice, log 36). -/
def offerSnapshotRequest (s : State) : Option Tx :=
  if s.pal.state = .resync ∧ !s.pal.outstanding ∧ !s.pos.batch.snapshotAsked then
    (s.pal.choice s.number s.mem.view s.agr).map (fun c =>
      { cls := .snapshotRequest, packet := .snapshotRequest (s.head (.station c) (s.pal.requestTag + 1)) none })
  else none

/-- Class 6 (R146). -/
def offerRetry (s : State) : Option Tx :=
  (s.msg.offerRetry s.number s.mem.view).map (fun m => { cls := .retry, packet := m.packet s.number })

/-- Class 7 (R144). -/
def offerPriority (s : State) : Option Tx :=
  (s.msg.offer s.number s.mem.view s.msg.priority).map (fun m => { cls := .priority, packet := m.packet s.number })

/-- Class 8 (R105). -/
def offerPalette (s : State) : Option Tx :=
  match s.pal.outbound with
  | r :: _ =>
    if (members s.mem.view).all (fun n => decide (1 ≤ creditOf s.pal.credits n)) then
      let rec' : UpdateRecord := { serial := s.pal.e, effective := r.effective, start := r.start, entries := r.entries }
      some { cls := .palette, packet := .palette (s.head .all 0) (.good rec') }
    else none
  | [] => none

/-- Class 9 (R131). -/
def offerRequest (s : State) : Option Tx :=
  (s.att.offer s.pos.batch.requestsSent).map (fun r => { cls := .request, packet := r.packet s.number })

/-- Class 10 (R144). -/
def offerBulk (s : State) : Option Tx :=
  (s.msg.offer s.number s.mem.view s.msg.bulk).map (fun m => { cls := .bulk, packet := m.packet s.number })

/-- Class 11 (R65). -/
def offerInvite (s : State) : Option Tx :=
  if anchor s.mem.view = some s.number ∧ s.startup.life = .member ∧ !s.pos.batch.inviteSent then
    (nextAbsent s.mem.cursor s.mem.view).map (fun n => { cls := .invite, packet := .invite (s.head (.station n) 0) none })
  else none

/-- Classes 4 to 11 in their order (R39). -/
def offerCounted (s : State) : Option Tx :=
  [offerReturn s, offerSnapshotRequest s, offerRetry s, offerPriority s, offerPalette s, offerRequest s, offerBulk s,
    offerInvite s].findSome? id

/-- The HANDOVER packet of a run (R45). -/
def handoverPacket (s : State) (run : HandoverRun) : Packet :=
  .handover (s.head (.station run.successor) 0) run.attempt run.view none

/-- Class 12: a HANDOVER packet from the view as it stands, attempt 1 (R45). -/
def grantHandover (s : State) : State :=
  let run : HandoverRun :=
    { attempt := .first, successor := (successor s.number s.mem.view).getD s.number, view := s.mem.view }
  (grant { cls := .handover, packet := handoverPacket s run } s).onPos (fun p => { p with handover := some run })

/-- Class 3 granted: the first grant fixes S, E0 and n and sets the deferral mark (R110, R118). -/
def grantAnswer (s : State) : State :=
  let s := s.onPal (fun p => p.startAnswer s.agr.l)
  match s.pal.answerPacket s.number with
  | some k => grant { cls := .answer, packet := k } s
  | none => grantHandover s

/-- R71: the HANDOVER packet of a leaving station carries the view without it. -/
def grantLeaveHandover (s : State) : State :=
  let v := removeFrom s.number s.mem.view
  grant { cls := .leaveHandover,
          packet := .handover (s.head (.station ((successor s.number v).getD s.number)) 0) .first v none } s

/-- R38, R71: the packets of a possession begun in LEAVING. -/
def chooseLeaving (s : State) : State :=
  if s.pos.batch.leaveSent then grantLeaveHandover s
  else grant { cls := .leave, packet := .leave (s.head .all 0) none } s

/-- The hold-budget count has reached the hold budget (R41). -/
def budgetUsed (s : State) : Bool := decide (s.cfg.holdBudget ≤ s.pos.batch.count)

/-- The choice among classes 2 to 12 (R39, R40). -/
def chooseAmong (s : State) : State :=
  if s.pal.answer.isSome then grantAnswer s
  else if s.startup.life = .leaving || budgetUsed s then grantHandover s
  else match offerCommit s with
    | some tx => grant tx s
    | none =>
      if answerOffered s then grantAnswer s
      else match offerCounted s with
        | some tx => grant tx s
        | none => grantHandover s

/-- The packet of one choice. In a possession begun as a MEMBER the STATUS packet comes first; a station that took the LEAVE
command before that packet was granted offers none (R78; log 10). Self-authority is asked at every choice after the station's
own STATUS packet (R116; log 21); its event comes after those that the row before the choice raises, where R166 lets either come first
(the model's choice, log 37). -/
def choosePacket (s : State) : State :=
  if s.pos.batch.leaving then chooseLeaving s
  else if s.pos.batch.statusGranted then chooseAmong (declareAuthority s)
  else if s.startup.life = .leaving then grantHandover s
  else grantStatus s

/-- R40: one choice of the scheduler; before any class is asked the ATT drops the stale heads of its pending-return queue (R136). -/
def choose (s : State) : State := choosePacket (s.onAtt (fun a => a.dropStale s.mem.view))

/-- A possession begins: POSSESSING with a fresh batch (R35, R37, R48). -/
def enterPossessing (s : State) : State :=
  s.onPos (fun p => { p.discard with state := .possessing,
                                     batch := { Batch.idle with leaving := s.startup.life == .leaving } })

/-- R37, R48: a possession that begins with its first packet. -/
def beginPossession (s : State) : State := choose (enterPossessing s)

/-- R35, R36: a possession opened by a CLAIM packet. -/
def claimPossession (s : State) : State :=
  let s := enterPossessing s
  grant { cls := .claim, packet := .claim (s.head .all 0) none } s

end Sys2Proof.Machine
end

