-- ==== Sys2Proof/Machine/Hearing.lean ====
section
/-! DEFINITION. What the units do with each kind of readable packet (R24), with the reply they give (R44). -/

namespace Sys2Proof.Machine

/-- R44: the addressed station answers with one short packet and is REPLYING until it is sent. -/
def reply (k : Packet) (s : State) : State := grant { cls := .reply, packet := k } (s.setPossession .replying)

/-- R27, R44: an ACK carries the tag of the packet it answers and whether that was heard with HEADER CORRECTED. -/
def replyAck (h : Head) (r : AckResult) (s : State) : State :=
  reply (.ack (s.head (.station h.source) h.tag) r h.corrected none) s

/-- R44: the station gives replies to requests: MEMBER and LISTENING. -/
def answersRequests (s : State) : Bool := s.startup.life == .member && s.pos.state == .listening

/-- The packet is addressed to this station by its number (R24). -/
def addressed (h : Head) (s : State) : Bool := h.dest == .station s.number

/-- R37: a LISTENING member named as successor by a view that contains it begins a possession. -/
def beginIfNamed (h : Head) (view : StationSet) (s : State) : State :=
  if s.inView && s.pos.state == .listening && addressed h s && inSet s.number view then beginPossession s else s

/-- R61, R63, R68: what a HANDOVER packet does to the membership. -/
def handoverMembership (h : Head) (view : StationSet) (s : State) : State :=
  match s.startup.life with
  | .joinPending =>
    if inSet s.number view then enterView false view { kind := .joined, station := some h.source } s else s
  | .member => if inSet s.number view then adopt view s else dropped h.source s
  | .leaving => if inSet s.number view then adopt view s else leftWall s
  | .unconfigured => s
  | .standby => s
  | .halted => s

/-- R37, R61, R63, R68: a HANDOVER packet: the view first, then the possession. -/
def onHandover (h : Head) (view : StationSet) (s : State) : State := beginIfNamed h view (handoverMembership h view s)

/-- R66: an INVITE packet addressed to a pending LISTENING station is answered with a JOIN packet. -/
def onInvite (h : Head) (s : State) : State :=
  if addressed h s && s.mem.joinPending && s.startup.life == .joinPending && s.pos.state == .listening then
    reply (.join (s.head (.station h.source) 0) s.cfg.participant none) s
  else s

/-- R80 to R84, R106, R111, R142: a STATUS packet. The events of the AGR and the PAL have no stated order (R166). -/
def onStatus (h : Head) (p : Payload StatusBody) (s : State) : State :=
  if s.inView && inSet h.source s.mem.view then
    match p with
    | .good b =>
      let a := s.agr.hearStatus s.number s.mem.view h.source b
      let q := s.pal.hearStatus h.source b
      (((s.onAgr (fun _ => a.1)).onPal (fun _ => q.1)).onMsg (fun g => g.hearStatus h.source b)).raiseBoth a.2 q.2
    | .failed _ =>
      (s.onPal (fun x => { x with credits := setCredit x.credits h.source 0 })).onMsg
        (fun g => { g with credits := setCredit g.credits h.source 0 })
  else s

/-- R89, R90: a COMMIT packet. -/
def onCommit (h : Head) (p : Payload CommitBody) (s : State) : State :=
  match p with
  | .good b =>
    if s.inView then
      let a := s.agr.hearCommit s.number s.mem.view h.source b
      (s.onAgr (fun _ => a.1)).raiseAll a.2
    else s
  | .failed _ => s

/-- R106, R108: a PALETTE packet. -/
def onPalette (h : Head) (p : Payload UpdateRecord) (s : State) : State :=
  if s.inView then
    let q := s.pal.hearPalette h.source p
    (s.onPal (fun _ => q.1)).raiseAll q.2
  else s

/-- R117: a SNAPSHOT REQUEST packet. -/
def onSnapshotRequest (h : Head) (s : State) : State :=
  if addressed h s && answersRequests s then
    replyAck h s.pal.judgeRequest
      (s.onPal (fun p => if p.judgeRequest = .accepted then { p with owed := some { requester := h.source, tag := h.tag } } else p))
  else s

/-- R120, R121: a SNAPSHOT packet. -/
def onSnapshot (h : Head) (part : Byte) (p : Payload SnapshotBody) (s : State) : State :=
  if s.inView then
    let q := s.pal.hearSnapshot s.number h part p
    (s.onPal (fun _ => q.1)).raiseAll q.2
  else s

/-- R120, R121: a REPLAY packet. -/
def onReplay (h : Head) (p : Payload UpdateRecord) (s : State) : State :=
  if s.inView then
    let q := s.pal.hearReplay s.number h p
    (s.onPal (fun _ => q.1)).raiseAll q.2
  else s

/-- R142: the credit records a readable MESSAGE packet lowers. -/
def lowerMessageCredits (h : Head) (s : State) : State :=
  s.onMsg (fun g => { g with credits := lowerFor g.credits h.source h.dest })

/-- R148, R149: delivery, where the packet goes through the checks. -/
def deliverMessage (h : Head) (stream : BitVec 2) (p : Payload (List Byte)) (s : State) : State :=
  if takesMessage s.number s.mem.view h then
    let g := s.msg.receive s.cfg.openStreams h stream p
    (s.onMsg (fun _ => g.1)).raiseAll g.2
  else s

/-- R148, R149: the ACK result of a directed MESSAGE packet. -/
def messageResult (h : Head) (stream : BitVec 2) (p : Payload (List Byte)) (s : State) : AckResult :=
  if inSet h.source s.mem.view then s.msg.judge s.cfg.openStreams h stream p else .refusedState

/-- R142, R148, R149: a MESSAGE packet: credits, delivery, reply. -/
def onMessage (h : Head) (ack : Bool) (stream : BitVec 2) (p : Payload (List Byte)) (s : State) : State :=
  if s.inView then
    let t := deliverMessage h stream p (lowerMessageCredits h s)
    if addressed h s && ack && answersRequests s then replyAck h (messageResult h stream p s) t else t
  else s

/-- R135: a READ packet. -/
def onRead (h : Head) (start count : Byte) (s : State) : State :=
  if addressed h s && answersRequests s then
    replyAck h (s.att.judgeRead start count) (s.onAtt (fun a => a.hearRead h start count))
  else s

/-- R137: a WRITE packet. -/
def onWrite (h : Head) (index : Byte) (value : Value) (s : State) : State :=
  if addressed h s && answersRequests s then
    let a := s.att.hearWrite h index value
    replyAck h (judgeWrite index) ((s.onAtt (fun _ => a.1)).raiseAll a.2)
  else s

/-- R132: a READ RETURN packet. -/
def onReadReturn (h : Head) (start count : Byte) (p : Payload (List Value)) (s : State) : State :=
  if addressed h s && s.inView then
    let a := s.att.hearReturn h start count p
    (s.onAtt (fun _ => a.1)).raiseAll a.2
  else s

/-- The class of a payload. -/
def payloadFlaw {α : Type} : Payload α → Option Flaw
  | .good _ => none
  | .failed f => some f

/-- The class of a packet besides HEADER CORRECTED. -/
def flawOf : Packet → Option Flaw
  | .handover _ _ _ f => f
  | .claim _ f => f
  | .invite _ f => f
  | .join _ _ f => f
  | .leave _ f => f
  | .status _ p => payloadFlaw p
  | .commit _ p => payloadFlaw p
  | .palette _ p => payloadFlaw p
  | .snapshotRequest _ f => f
  | .snapshot _ _ p => payloadFlaw p
  | .replay _ p => payloadFlaw p
  | .message _ _ _ p => payloadFlaw p
  | .read _ _ _ f => f
  | .write _ _ _ f => f
  | .readReturn _ _ _ p => payloadFlaw p
  | .ack _ _ _ f => f

/-- What the units do with a readable packet heard outside a reply slot's reply (R24): CLAIM, LEAVE, JOIN and ACK act through
their activity alone (R35, R67, R72, R44). -/
def actOn : Packet → State → State
  | .handover h _ v _ => onHandover h v
  | .claim _ _ => id
  | .invite h _ => onInvite h
  | .join _ _ _ => id
  | .leave _ _ => id
  | .status h p => onStatus h p
  | .commit h p => onCommit h p
  | .palette h p => onPalette h p
  | .snapshotRequest h _ => onSnapshotRequest h
  | .snapshot h part p => onSnapshot h part p
  | .replay h p => onReplay h p
  | .message h a st p => onMessage h a st p
  | .read h a n _ => onRead h a n
  | .write h i v _ => onWrite h i v
  | .readReturn h a n p => onReadReturn h a n p
  | .ack _ _ _ _ => id

end Sys2Proof.Machine
end

