-- ==== Sys2Proof/Machine/Possession.lean ====
section
/-! DEFINITION. The Possession Unit at work (chapter 3): activity, reply slots, packets sent, contention, the ends of its timers,
and the rows of the table for them. -/

namespace Sys2Proof.Machine

/-! ### Reply slots (R42, R43) -/

/-- What a reply slot ends with. -/
inductive SlotResult where
  | noReply
  | ack (r : AckResult) (corrected : Bool)
  | joined (participant : Bool)
deriving DecidableEq, Repr

/-- The ACK result, none for NO REPLY. -/
def SlotResult.result : SlotResult → Option AckResult
  | .ack r _ => some r
  | .noReply => none
  | .joined _ => none

/-- The header-corrected flag of an ACK (R27). -/
def SlotResult.corrected : SlotResult → Bool
  | .ack _ c => c
  | .noReply => false
  | .joined _ => false

/-- R42: the reply a slot waits for: from the addressed station, of the reply kind, addressed to the possessor, an ACK echoing
the tag. -/
def replyIn (own : Station) (sl : Slot) : Packet → Option SlotResult
  | .join h participant _ =>
    if sl.owner = .invite ∧ h.source = sl.target ∧ h.dest = .station own then some (.joined participant) else none
  | .ack h r c _ =>
    if sl.owner ≠ .invite ∧ h.source = sl.target ∧ h.dest = .station own ∧ h.tag = sl.tag then some (.ack r c) else none
  | _ => none

/-- R114: the outcome of a SNAPSHOT REQUEST packet's slot. -/
def Pal.requestEnds (p : Pal) (r : Option AckResult) : Pal :=
  if r = some .accepted then { p with outstanding := true, wait := some 0 } else { p with outstanding := false }

/-- R42: the outcome is passed to the waiting unit; an ACK QUEUE FULL zeroes the record of its sender whatever the slot
(R142; log 25). -/
def slotOutcome (sl : Slot) (r : SlotResult) (s : State) : State :=
  let s := s.onPos (fun p => { p with slot := none })
  let s := if r.result = some .queueFull then
      s.onMsg (fun g => { g with credits := setCredit g.credits sl.target 0 }) else s
  match sl.owner with
  | .invite =>
    match r with
    | .joined participant => addJoiner sl.target participant s
    | .noReply => s
    | .ack _ _ => s
  | .snapshotRequest => s.onPal (fun p => p.requestEnds r.result)
  | .request tag =>
    let a := s.att.slotEnds tag r.result r.corrected
    (s.onAtt (fun _ => a.1)).raiseAll a.2
  | .message =>
    let g := s.msg.slotEnds r.corrected r.result
    (s.onMsg (fun _ => g.1)).raiseAll g.2

/-- R42: the possessor returns to POSSESSING and the scheduler chooses again. -/
def resumePossession (s : State) : State := choose (s.setPossession .possessing)

/-- R43: a possession conflict: NO REPLY for the waiting unit, LISTENING, the possession discarded. -/
def conflict (sl : Slot) (s : State) : State :=
  (slotOutcome sl .noReply s).onPos (fun p => { p.discard with state := .listening })

/-- R42: the possessor enters AWAITING REPLY. -/
def openSlot (target : Station) (tag : Byte) (owner : SlotOwner) (s : State) : State :=
  s.onPos (fun p => { p with
    state := .awaitingReply
    slot := some { target := target, tag := tag, owner := owner, activity := false, elapsed := 0 } })

/-! ### Activity (R17, R34, R46) -/

/-- R46: activity before the turnaround window ends ends the station's part in the possession. -/
def Pos.endHandover (p : Pos) : Pos :=
  if p.state = .handingOver ∧ p.turnaround.isSome then { p.discard with state := .listening } else p

/-- R34, R42, R46: what activity means to the POS. -/
def Pos.activity (p : Pos) : Pos :=
  { p.endHandover with silence := 0, slot := p.endHandover.slot.map (fun sl => { sl with activity := true }) }

/-- R17: the departure moves an ARMED receiver into DELIMITER and raises the line-busy indication. -/
def Lif.departs (l : Lif) : Lif := { l with receiver := .delimiter, lineBusy := true, released := none }

/-- R17: activity is reported. -/
def reportActivity (s : State) : State := (s.onLif Lif.departs).onPos Pos.activity

/-- The line departs from RELEASED: seen only by an ARMED receiver (R16, R17). -/
def execActivity (s : State) : Host.Outcome State Fault Refusal :=
  .next (if s.inReset || s.lif.receiver != .armed then s else reportActivity s)

/-! ### Driving (R28 to R30) -/

/-- R28: the LIF begins to drive; a frame in progress is ended unheard and the receiver follows the station's own packet, with
its activity if the receiver was ARMED (log 11). -/
def beginDriving (tx : Tx) (s : State) : State :=
  let t := if s.lif.receiver = .armed then reportActivity s else s
  t.onLif (fun l => { l with
    driver := .driving tx, released := none, receiver := if l.receiver = .off then .off else .delimiter })

/-- The guard has passed and the packet handed to the LIF is driven. -/
def execLifBeginDriving (s : State) : Host.Outcome State Fault Refusal :=
  .next (match s.lif.driver with
    | .waiting tx => if s.inReset then s else beginDriving tx s
    | .released => s
    | .driving _ => s)

/-- R29: the line is released after the station's own packet, whose end the receiver drains from. -/
def Lif.sent (l : Lif) : Lif :=
  { l with driver := .released, released := some 0, lineBusy := true,
           receiver := if l.receiver = .off then .off else .draining }

/-- R41: a counted packet raises the hold-budget count when it is sent. -/
def Pos.countSent (p : Pos) (c : TxClass) : Pos :=
  { p with silence := 0, batch := { p.batch with count := if c.counted then p.batch.count + 1 else p.batch.count } }

/-- R85, R118: the station's own STATUS packet: taken as every station takes it, then the commit decision of a MEMBER, then an
owed answer to a station outside the view is dropped. -/
def statusSent (h : Head) (p : Payload StatusBody) (s : State) : State :=
  let s := onStatus h p s
  let s := s.onAgr (fun a => { a with
    pendingCommit := if s.startup.life = .member then a.decision s.cfg s.mem.view else none })
  s.onPal (fun p => p.dropOwed (fun n => !inSet n s.mem.view))

/-- R45: the HANDOVER packet is sent: HANDING OVER, with its turnaround window. Adopting the station's own view changes nothing. -/
def handoverSent (s : State) : State :=
  s.onPos (fun p => { p with state := .handingOver, turnaround := some 0, batch := Batch.idle, slot := none })

/-- R144, R145: a MESSAGE packet is sent: the sender's own credits fall, and the record is finished or waits in the slot. -/
def messageSent (h : Head) (ack : Bool) (take : Msg → Msg × List EventRecord) (s : State) : State :=
  let s := lowerMessageCredits h s
  let g := take s.msg
  let t := (s.onMsg (fun _ => g.1)).raiseAll g.2
  match ack, h.dest with
  | true, .station d => openSlot d h.tag .message t
  | _, _ => choose t

/-- R131: a READ or WRITE packet is sent: attempts rises and the slot opens. -/
def requestSent (h : Head) (s : State) : State :=
  let t := (s.onAtt (fun a => a.update h.tag (fun r => { r with attempts := r.attempts + 1 }))).onPos
    (fun p => { p with batch := { p.batch with requestsSent := p.batch.requestsSent ++ [h.tag] } })
  match h.dest with
  | .station d => openSlot d h.tag (.request h.tag) t
  | .all => t

/-- R65: an INVITE packet is sent: the cursor moves and the slot opens. -/
def inviteSent (h : Head) (s : State) : State :=
  match h.dest with
  | .station d =>
    openSlot d 0 .invite ((s.onMem (fun m => { m with cursor := d })).onPos
      (fun p => { p with batch := { p.batch with inviteSent := true } }))
  | .all => s

/-- R114: a SNAPSHOT REQUEST packet is sent: the candidate record notes candidate and tag. -/
def snapshotRequestSent (h : Head) (s : State) : State :=
  match h.dest with
  | .station d =>
    openSlot d h.tag .snapshotRequest ((s.onPal (fun p => { p with candidate := some d, requestTag := h.tag })).onPos
      (fun p => { p with batch := { p.batch with snapshotAsked := true } }))
  | .all => s

/-- R71: the LEAVE packet is sent: a sole member's leave is complete, another's HANDOVER packet follows. -/
def leaveSent (s : State) : State :=
  if removeFrom s.number s.mem.view = 0 then leftWall s
  else choose (s.onPos (fun p => { p with batch := { p.batch with leaveSent := true } }))

/-- What follows when a packet of each class is sent: the effects of hearing it at its sender, and the possession moves on. -/
def afterSent (c : TxClass) (k : Packet) (s : State) : State :=
  match c, k with
  | .claim, _ => choose s
  | .status, .status h p => choose (statusSent h p s)
  | .commit, .commit h p => choose ((onCommit h p s).onAgr (fun a => { a with pendingCommit := none }))
  | .answer, _ => choose (s.onPal (fun p => p.answerSent s.agr.l))
  | .readReturn, _ => choose (s.onAtt (fun a => { a with returns := a.returns.tail }))
  | .snapshotRequest, k => snapshotRequestSent k.head s
  | .retry, k => messageSent k.head true (fun g => (g.sentRetry, [])) s
  | .priority, .message h ack _ _ => messageSent h ack Msg.sentPriority s
  | .bulk, .message h ack _ _ => messageSent h ack Msg.sentBulk s
  | .palette, .palette h p => choose (onPalette h p (s.onPal (fun q => { q with outbound := q.outbound.tail })))
  | .request, k => requestSent k.head s
  | .invite, k => inviteSent k.head s
  | .handover, _ => handoverSent s
  | .leave, _ => leaveSent s
  | .leaveHandover, _ => leftWall s
  | .reply, _ => s.setPossession .listening
  | _, _ => s

/-- R29: what the sending of any packet changes first: the line is released, the silence timer is zero, a counted packet is counted,
and, since the packet is heard at its sender and comes from a station other than the answerer, an awaited answer that it breaks
has failed (R121). -/
def sentBy (tx : Tx) (s : State) : State :=
  let t := (s.onLif Lif.sent).onPos (fun p => p.countSent tx.cls)
  if s.inView then t.onPal (fun p => p.breakAnswer s.number tx.packet) else t

/-- R29: the packet in the driver is sent and heard at its sender. -/
def packetSent (tx : Tx) (s : State) : State := afterSent tx.cls tx.packet (sentBy tx s)

/-- The packet handed to the driver, if there is one. -/
def Driver.tx : Driver → Option Tx
  | .waiting t => some t
  | .driving t => some t
  | .released => none

/-- The station's own packet, which the LIF drives, is heard whole (R29). -/
def execPacketSent (s : State) : Host.Outcome State Fault Refusal :=
  .next (match s.lif.driver.driven with
    | some tx => if s.inReset then s else packetSent tx s
    | none => s)

/-! ### Contention and bus hold (R30, R50 to R55) -/

/-- The event reason of a fault kind. -/
def faultReason : DriveFault → Reason
  | .driveHigh => .driveHigh
  | .driveLow => .driveLow

/-- R50: the POS enters BUS HOLD; the hold timer runs in AUTOMATIC recovery mode only. -/
def Pos.enterHold (p : Pos) (mode : Recovery) (kind : DriveFault) : Pos :=
  { p.discard with
    state := .busHold, silence := 0, fault := some kind
    hold := match mode with
      | .automatic => some 0
      | .acknowledged => none }

/-- R50, R51: contention while driving: the packet is not sent; a pending COMMIT and an answer end, every other record stays. -/
def contend (kind : DriveFault) (s : State) : State :=
  let s := (s.onLif (fun l => { l with driver := .released, released := some 0,
                                       receiver := if l.receiver = .off then .off else .draining })).onPos
    (fun p => p.enterHold s.cfg.recovery kind)
  ((s.onAgr (fun a => { a with pendingCommit := none })).onPal (fun p => p.cutAnswer s.agr.l)).raise
    { kind := .busFault, reason := some (faultReason kind) }

/-- The comparator finds a difference while the LIF drives: `Packet.contention` says when, and of which kind (R30). -/
def execContention (kind : DriveFault) (s : State) : Host.Outcome State Fault Refusal :=
  .next (match s.lif.driver.driven with
    | some _ => if s.inReset then s else contend kind s
    | none => s)

/-- R53: the hold ends in LISTENING with the silence timer at zero. -/
def Pos.endHold (p : Pos) : Pos := { p with state := .listening, silence := 0, hold := none }

/-- The bus-hold interval ends; the timer runs in AUTOMATIC mode only (R50, R53). -/
def execBusHoldIntervalExpiry (s : State) : Host.Outcome State Fault Refusal :=
  .next (if !s.inReset && s.pos.state == .busHold && s.pos.hold.isSome then s.onPos Pos.endHold else s)

/-- R54: the ACKNOWLEDGE FAULT command. -/
def acknowledgeFaultCommand (s : State) : State × Response :=
  if s.pos.state = .busHold then (s.onPos (fun p => { p.endHold with fault := none }), .done [])
  else if s.pos.fault.isSome then (s.onPos (fun p => { p with fault := none }), .done [])
  else (s, .refused .state)

/-! ### The ends of the windows and silences (R35, R36, R42, R47, R48) -/

/-- The reply window ends without activity (R42). -/
def execReplyWindowEnd (s : State) : Host.Outcome State Fault Refusal :=
  .next (match s.pos.slot with
    | some sl =>
      if !s.inReset && s.pos.state == .awaitingReply && !sl.activity then resumePossession (slotOutcome sl .noReply s) else s
    | none => s)

/-- R47: attempt 2 repeats the HANDOVER packet. -/
def secondAttempt (run : HandoverRun) (s : State) : State :=
  let again := { run with attempt := .second }
  (grant { cls := .handover, packet := handoverPacket s again } s).onPos
    (fun p => { p with handover := some again, turnaround := none })

/-- R47, R70: the successor has failed and the next one is named. -/
def passOver (run : HandoverRun) (s : State) : State :=
  grantHandover ((removeSilent run.successor s).onPos (fun p => { p with turnaround := none }))

/-- R47, R48: a turnaround window ends without activity. -/
def windowEnds (run : HandoverRun) (s : State) : State :=
  if run.successor = s.number then beginPossession s
  else match run.attempt with
    | .first => secondAttempt run s
    | .second => passOver run s

/-- A turnaround window ends without activity. -/
def execTurnaroundWindowEnd (s : State) : Host.Outcome State Fault Refusal :=
  .next (match s.pos.handover with
    | some run =>
      if !s.inReset && s.pos.state == .handingOver && s.pos.turnaround.isSome then windowEnds run s else s
    | none => s)

/-- R35: the silence of a LISTENING member reaches its claim delay. -/
def execClaimDelayExpiry (s : State) : Host.Outcome State Fault Refusal :=
  .next (if !s.inReset && s.inView && s.pos.state == .listening then claimPossession s else s)

/-- R69: founding, before the CLAIM packet. -/
def found (s : State) : State :=
  enterView true (single s.number) { kind := .joined, station := some s.number, reason := some .founded } s

/-- R36, R69: the silence of a pending LISTENING station reaches its founding silence. -/
def execFoundingSilenceExpiry (s : State) : Host.Outcome State Fault Refusal :=
  .next (if !s.inReset && s.startup.life == .joinPending && s.pos.state == .listening then claimPossession (found s) else s)

/-- R115: the snapshot wait timer expires while it runs. -/
def execSnapshotWaitExpiry (s : State) : Host.Outcome State Fault Refusal :=
  .next (if !s.inReset && s.pal.wait.isSome then s.onPal Pal.endRequest else s)

/-- R132: the request timeout of an entry in AWAITING RETURN expires. -/
def execRequestTimeout (tag : Byte) (s : State) : Host.Outcome State Fault Refusal :=
  .next (if s.inReset then s else (s.onAtt (fun _ => (s.att.timeout tag).1)).raiseAll (s.att.timeout tag).2)

end Sys2Proof.Machine
end

