-- ==== Sys2Proof/Machine/Reception.lean ====
section
/-! DEFINITION. Hearing a packet (R16, R24 to R26, R42, R43): what every packet does at the LIF and the POS, then its own kind's
effects, and the rows of the table for packets heard. -/

namespace Sys2Proof.Machine

/-- Whether the receiver can rearm: no reset in force, the receiver on, and the LIF not driving (R16). -/
def canRearm (s : State) : Bool := !s.inReset && s.lif.receiver != .off && !s.lif.driver.isDriving

/-- Whether a packet can be heard: the receiver has followed it, and the LIF is not driving, since a frame in progress is ended
unheard when it begins to drive (R16, R28). -/
def canHear (s : State) : Bool := !s.inReset && s.lif.receiver.follows && !s.lif.driver.isDriving

/-- The set of classes a packet is heard with (R23). -/
def classesOf : Heard → Classes
  | .unreadable u => .unreadable u
  | .readable k => .readable k.head.corrected (flawOf k)

/-- R26: a packet heard with a non-empty set replaces the last receive error record. -/
def Lif.noteClasses (l : Lif) (c : Classes) : Lif :=
  match c with
  | .readable false none => l
  | c => { l with lastError := some c }

/-- Whether a packet is heard at its end delimiter, and not when the receiver rearms (R14, R15, R19 to R22). -/
def heardAtEnd : Classes → Bool
  | .readable _ none => true
  | .readable _ (some .payloadFailed) => true
  | _ => false

/-- R16: where the receiver stands after a packet heard: draining after an end delimiter; a packet judged in error leaves it
draining or, where it has just rearmed, armed. -/
def Lif.frameEnds (l : Lif) (c : Classes) : Lif :=
  if heardAtEnd c then { l with receiver := .draining, lineBusy := true, released := some 0 }
  else { l with receiver := if l.receiver = .armed then .armed else .draining }

/-- R16, R17: the receiver rearms and the line-busy indication is lowered. -/
def Lif.rearm (l : Lif) : Lif :=
  { l with receiver := .armed, lineBusy := false, released := some (max Config.rearmInterval (l.released.getD 0)) }

/-- R25, R26, R46: what hearing any packet does before the units: the error record, and, since its activity came first, the
silence timer at zero and a running turnaround window ended (log 2). -/
def notePacket (c : Classes) (s : State) : State :=
  (s.onLif (fun l => l.noteClasses c)).onPos (fun p => { p.endHandover with silence := 0 })

/-- R25: every credit record for another member becomes 0. -/
def zeroCredits (s : State) : State :=
  (s.onPal (fun p => { p with credits := zeroOthers s.number p.credits })).onMsg
    (fun g => { g with credits := zeroOthers s.number g.credits })

/-- R42: in AWAITING REPLY an unreadable packet is NO REPLY. -/
def unreadableInSlot (s : State) : State :=
  match s.pos.slot with
  | some sl => if s.pos.state = .awaitingReply then resumePossession (slotOutcome sl .noReply s) else s
  | none => s

/-- R25, R42, R121: an unreadable packet. -/
def hearUnreadable (s : State) : State :=
  unreadableInSlot (if s.inView then (zeroCredits s).onPal Pal.breakUnreadable else s)

/-- R42, R43: in AWAITING REPLY the packet is the reply or a possession conflict; then the units act. -/
def throughSlot (k : Packet) (act : State → State) (s : State) : State :=
  match s.pos.slot with
  | some sl =>
    if s.pos.state = .awaitingReply then
      match replyIn s.number sl k with
      | some r => resumePossession (slotOutcome sl r s)
      | none => act (conflict sl s)
    else act s
  | none => act s

/-- R10, R24, R121: a readable packet: the duplicate-number check, the awaited answer, the slot, the units. -/
def hearReadable (k : Packet) (act : State → State) (s : State) : State :=
  if k.head.source = s.number then halt s
  else throughSlot k act (if s.inView then s.onPal (fun p => p.breakAnswer s.number k) else s)

/-- What the station does with a packet it hears; in HALTED the LIF alone takes notice (R10, R24). -/
def unitsHear (h : Heard) (act : State → State) (s : State) : State :=
  let t := notePacket (classesOf h) s
  if t.startup.life = .halted then t
  else match h with
    | .unreadable _ => hearUnreadable t
    | .readable k => hearReadable k act t

/-- A packet is heard, where one can be (log 2). -/
def hear (h : Heard) (act : State → State) (s : State) : State :=
  if canHear s then unitsHear h act (s.onLif (fun l => l.frameEnds (classesOf h))) else s

/-- What the units do with a packet judged in error, heard at the rearm. -/
def actOnHeard : Heard → State → State
  | .readable k => actOn k
  | .unreadable _ => id

/-- R14 to R16, R19 to R21: the receiver rearms, and a packet judged in error is heard at that moment; in DRAINING the receiver has
followed none. -/
def rearm (judged : Option Heard) (s : State) : State :=
  match judged with
  | none => s.onLif Lif.rearm
  | some h => if canHear s then unitsHear h (actOnHeard h) (s.onLif Lif.rearm) else s.onLif Lif.rearm

/-- The line has stood at RELEASED for the rearm interval. -/
def execReceiverRearm (judged : Option Heard) (s : State) : Host.Outcome State Fault Refusal :=
  .next (if canRearm s then rearm judged s else s)

/-- An unreadable packet is heard (R25). -/
def execUnreadablePacketHeard (u : Unreadable) (s : State) : Host.Outcome State Fault Refusal :=
  .next (hear (.unreadable u) id s)

/-- A readable HANDOVER packet is heard (R37, R61, R63, R68). -/
def execHandoverHeard (h : Head) (a : Attempt) (v : StationSet) (f : Option Flaw) (s : State) :
    Host.Outcome State Fault Refusal :=
  .next (hear (.readable (.handover h a v f)) (onHandover h v) s)

/-- A readable CLAIM packet acts through its activity alone (R35). -/
def execClaimHeard (h : Head) (f : Option Flaw) (s : State) : Host.Outcome State Fault Refusal :=
  .next (hear (.readable (.claim h f)) id s)

/-- An INVITE packet is heard (R65, R66). -/
def execInviteHeard (h : Head) (f : Option Flaw) (s : State) : Host.Outcome State Fault Refusal :=
  .next (hear (.readable (.invite h f)) (onInvite h) s)

/-- A JOIN packet is heard: the reply in the inviter's slot, elsewhere activity only (R67). -/
def execJoinHeard (h : Head) (participant : Bool) (f : Option Flaw) (s : State) : Host.Outcome State Fault Refusal :=
  .next (hear (.readable (.join h participant f)) id s)

/-- A LEAVE packet is heard as activity only (R72). -/
def execLeaveHeard (h : Head) (f : Option Flaw) (s : State) : Host.Outcome State Fault Refusal :=
  .next (hear (.readable (.leave h f)) id s)

/-- A STATUS packet is heard (R80 to R84, R106, R111, R142). -/
def execStatusHeard (h : Head) (p : Payload StatusBody) (s : State) : Host.Outcome State Fault Refusal :=
  .next (hear (.readable (.status h p)) (onStatus h p) s)

/-- A COMMIT packet is heard (R89, R90). -/
def execCommitHeard (h : Head) (p : Payload CommitBody) (s : State) : Host.Outcome State Fault Refusal :=
  .next (hear (.readable (.commit h p)) (onCommit h p) s)

/-- A PALETTE packet is heard (R106, R108). -/
def execPaletteHeard (h : Head) (p : Payload UpdateRecord) (s : State) : Host.Outcome State Fault Refusal :=
  .next (hear (.readable (.palette h p)) (onPalette h p) s)

/-- A SNAPSHOT REQUEST packet is heard (R117). -/
def execSnapshotRequestHeard (h : Head) (f : Option Flaw) (s : State) : Host.Outcome State Fault Refusal :=
  .next (hear (.readable (.snapshotRequest h f)) (onSnapshotRequest h) s)

/-- A SNAPSHOT packet is heard (R120, R121). -/
def execSnapshotHeard (h : Head) (part : Byte) (p : Payload SnapshotBody) (s : State) : Host.Outcome State Fault Refusal :=
  .next (hear (.readable (.snapshot h part p)) (onSnapshot h part p) s)

/-- A REPLAY packet is heard (R120, R121). -/
def execReplayHeard (h : Head) (p : Payload UpdateRecord) (s : State) : Host.Outcome State Fault Refusal :=
  .next (hear (.readable (.replay h p)) (onReplay h p) s)

/-- A MESSAGE packet is heard (R142, R148, R149). -/
def execMessageHeard (h : Head) (ack : Bool) (stream : BitVec 2) (p : Payload (List Byte)) (s : State) :
    Host.Outcome State Fault Refusal :=
  .next (hear (.readable (.message h ack stream p)) (onMessage h ack stream p) s)

/-- A READ packet is heard (R135). -/
def execReadHeard (h : Head) (start count : Byte) (f : Option Flaw) (s : State) : Host.Outcome State Fault Refusal :=
  .next (hear (.readable (.read h start count f)) (onRead h start count) s)

/-- A WRITE packet is heard (R137). -/
def execWriteHeard (h : Head) (index : Byte) (value : Value) (f : Option Flaw) (s : State) :
    Host.Outcome State Fault Refusal :=
  .next (hear (.readable (.write h index value f)) (onWrite h index value) s)

/-- A READ RETURN packet is heard (R132). -/
def execReadReturnHeard (h : Head) (start count : Byte) (p : Payload (List Value)) (s : State) :
    Host.Outcome State Fault Refusal :=
  .next (hear (.readable (.readReturn h start count p)) (onReadReturn h start count p) s)

/-- An ACK packet is heard: the reply in the possessor's slot, elsewhere activity only (R42, R44). -/
def execAckHeard (h : Head) (r : AckResult) (c : Bool) (f : Option Flaw) (s : State) : Host.Outcome State Fault Refusal :=
  .next (hear (.readable (.ack h r c f)) id s)

end Sys2Proof.Machine
end

