-- ==== Sys2Proof/Machine/Port.lean ====
section
/-! DEFINITION. The control port (chapter 9): transactions, and the port's own five commands. -/

namespace Sys2Proof.Machine

/-! ### The bits of a transaction (R156, R157) -/

/-- Bit k of an output stream on SDO: the bytes of the stream, each most significant bit first, then zero bits for as long as the
tile controller goes on clocking. -/
def streamBit (out : List Byte) (k : Nat) : Bool := (bitsOfBytes out).getD k false

/-- The level of SDO: in an open transaction the bit of the stream that follows the bits clocked so far, the first one from the
fall of CSN on; released to high impedance otherwise. -/
def sdo (s : State) : Option Bool :=
  match s.cpe.port with
  | .opened out received => some (streamBit out received.length)
  | .closed => none
  | .abandoned => none

/-- One cycle of SCK: its rising edge takes a bit from SDI, its falling edge moves SDO to the next bit. Without an open transaction
SCK and SDI are ignored. -/
def Port.clock (sdi : Bool) : Port → Port
  | .opened out received => .opened out (received ++ [sdi])
  | .closed => .closed
  | .abandoned => .abandoned

/-- The cycles of SCK that carry a string of bits. The table has no row for them: the row of the rise of CSN stands for the cycles
of its frame (log 13). -/
def Port.clockAll (p : Port) (sdi : List Bool) : Port := sdi.foldl (fun q b => q.clock b) p

/-- The row that the rise of CSN is: the judgement of the bits received in the transaction (R158). -/
def Port.row : Port → Option Instr
  | .opened _ received => some (portRow received)
  | .closed => none
  | .abandoned => none

/-! ### The fall and the rise of CSN (R156 to R158) -/

/-- R156, R157: CSN falls: the held response moves into the output stream and is empty from then on. -/
def openPort (c : Cpe) : Cpe :=
  match c.port with
  | .opened _ _ => c
  | .closed => { c with port := .opened (outStream c.held) [], held := none }
  | .abandoned => { c with port := .opened (outStream c.held) [], held := none }

/-- TRANSACTION_OPEN: during a reset no transaction is taken, and none is taken at the rise of CSN that follows, be it after the
reset's end (R156; log 14). -/
def execTransactionOpen (s : State) : Host.Outcome State Fault Refusal :=
  .next (s.onCpe (fun c => if s.inReset then { c with port := .abandoned } else openPort c))

/-- The transaction closes with a held response. -/
def Cpe.close (c : Cpe) (r : Option Response) : Cpe := { c with port := .closed, held := r }

/-- CSN rises where no transaction is taken: nothing is judged, and a held response stays. -/
def Cpe.endUntaken (c : Cpe) : Cpe := { c with port := .closed }

/-- A frame is judged at the rise of CSN: no reset is in force, and none was while CSN stood low (R1, R156; log 14). -/
def canTake (s : State) : Bool := !s.inReset && s.cpe.port != .abandoned

/-- R158: CSN rises on a complete frame: the command is taken, and its owner's response is held. No command is taken during a
reset or from a transaction that a reset abandoned (R156; log 14). A command with no TRANSACTION_OPEN before it is taken
all the same (log 2). -/
def takeCommand (f : State → State × Response) (s : State) : State :=
  if canTake s then (f s).1.onCpe (fun c => c.close (some (f s).2)) else s.onCpe Cpe.endUntaken

/-- The rise of CSN on a frame passed to no unit leaves a held response of its own (R158). -/
def closeFrame (r : Option Response) (s : State) : State :=
  s.onCpe (fun c => if canTake s then c.close r else c.endUntaken)

/-- REFUSED_FORMAT: CSN rises on bits that form no complete frame; no bits at all leave the held response empty (R158). Bits
that do form one are the row of their command and are refused here (log 13). -/
def execRefusedFormat (bits : List Bool) (s : State) : Host.Outcome State Fault Refusal :=
  match judgeBits bits with
  | .nothing => .next (closeFrame none s)
  | .malformed => .next (closeFrame (some (.refused .format)) s)
  | .command _ => .refused .completeFrame

/-- NO OPERATION (R162). -/
def execNoOperation (s : State) : Host.Outcome State Fault Refusal := .next (takeCommand (fun t => (t, .done [])) s)

/-- The six configuration bytes, all FFh when the record is absent (R178). -/
def configBytes : Option ConfigRecord → List Byte
  | none => [0xFF, 0xFF, 0xFF, 0xFF, 0xFF, 0xFF]
  | some c => [flagByte c.participant, c.policy.code, byte c.deadline, byte c.holdBudget, c.openStreams.setWidth 8, c.recovery.code]

/-- The credit pair of a station, FFh FFh for one that is no member (R163, R178). -/
def creditPair (s : State) (n : Station) : List Byte :=
  if inSet n s.mem.view then [byte (creditOf s.pal.credits n), byte (creditOf s.msg.credits n)] else [0xFF, 0xFF]

/-- The identity, life-cycle and possession parts of the READ STATE record. -/
def stateHead (s : State) : List Byte :=
  [byte s.number.val, s.startup.life.code] ++ configBytes s.startup.config ++
    [s.pos.state.code, faultCode s.pos.fault, (s.lif.lastError.map classesCode).getD 0]

/-- The agreement part. -/
def stateAgreement (s : State) : List Byte :=
  bytesOfSeq s.agr.l ++ bytesOfSeq s.agr.r ++ bytesOfSeq s.agr.c ++ [s.agr.agreement.code] ++ bytesOfValue s.agr.inStep ++
    [flagByte s.agr.known, byte s.agr.wait, flagByte s.agr.deadlineReported]

/-- The palette part. -/
def statePalette (s : State) : List Byte :=
  [paletteCode s.pal.state] ++ bytesOfSerial s.pal.e ++
    [byte s.pal.store.length, byte s.pal.outbound.length, stationByte s.pal.candidate, flagByte s.pal.outstanding,
     stationByte (s.pal.owed.map Owed.requester), flagByte s.pal.deferral]

/-- The credits, messages, requests and events parts. -/
def stateRest (s : State) : List Byte :=
  stations.flatMap (creditPair s) ++
    [byte s.msg.inbound.length, byte s.msg.priority.length, byte s.msg.bulk.length, flagByte s.msg.retry.isSome,
     byte s.att.requests.length, byte s.att.returns.length, byte s.cpe.events.length]

/-- READ STATE: every part read at one moment (R163, R178). -/
def execReadState (s : State) : Host.Outcome State Fault Refusal :=
  .next (takeCommand (fun t => (t, .done (stateHead t ++ stateAgreement t ++ statePalette t ++ stateRest t))) s)

/-- READ VIEW (R164, R178). -/
def execReadView (s : State) : Host.Outcome State Fault Refusal :=
  .next (takeCommand (fun t => (t, .done (bytesOfValue t.mem.view ++
    [stationByte (anchor t.mem.view), byte t.mem.cursor.val, flagByte t.mem.joinPending]))) s)

/-- In-step membership as READ READINESS reports it: 0 NOT IN SET, 1 IN SET, 2 UNKNOWN (R165, R178). -/
def inStepByte (a : Agr) (n : Station) : Byte := if !a.known then 2 else flagByte (inSet n a.inStep)

/-- The participant flag, FFh where it is absent (R178). -/
def participantByte : Option Bool → Byte
  | none => 0xFF
  | some b => flagByte b

/-- The READ READINESS record of one station; fields absent under a mark are zero, the participant flag FFh (R165, R178). -/
def readinessBytes (a : Agr) (n : Station) : List Byte :=
  match a.entry n with
  | none => [0] ++ bytesOfSeq 0 ++ bytesOfSeq 0 ++ bytesOfSeq 0 ++ [0xFF, 0, 0]
  | some ⟨flag, none⟩ => [1] ++ bytesOfSeq 0 ++ bytesOfSeq 0 ++ bytesOfSeq 0 ++ [participantByte flag, 0, inStepByte a n]
  | some ⟨flag, some r⟩ =>
    [2] ++ bytesOfSeq r.l ++ bytesOfSeq r.r ++ bytesOfSeq r.c ++ [participantByte flag, paletteCode r.palette, inStepByte a n]

/-- R165: the READ READINESS command. -/
def readReadinessCommand (number : Byte) (s : State) : State × Response :=
  match stationOf number with
  | none => (s, .refused .range)
  | some n => (s, .done (readinessBytes s.agr n))

/-- READ READINESS (R165). -/
def execReadReadiness (number : Byte) (s : State) : Host.Outcome State Fault Refusal :=
  .next (takeCommand (readReadinessCommand number) s)

/-- R168: the TAKE EVENT command. -/
def takeEventCommand (s : State) : State × Response :=
  match s.cpe.events with
  | [] => (s, .refused .empty)
  | e :: rest => (s.onCpe (fun c => { c with events := rest }), .done (e.bytes ++ [byte rest.length]))

/-- TAKE EVENT (R168). -/
def execTakeEvent (s : State) : Host.Outcome State Fault Refusal := .next (takeCommand takeEventCommand s)

/-- ACKNOWLEDGE FAULT (R54). -/
def execAcknowledgeFault (s : State) : Host.Outcome State Fault Refusal := .next (takeCommand acknowledgeFaultCommand s)

/-- READY (R76). -/
def execReady (n : Seq) (s : State) : Host.Outcome State Fault Refusal := .next (takeCommand (readyCommand n) s)

/-- SUBMIT PALETTE (R104). -/
def execSubmitPalette (e : Seq) (start : BitVec 16) (ws : List Value) (s : State) : Host.Outcome State Fault Refusal :=
  .next (takeCommand (submitPaletteCommand e start ws) s)

/-- READ PALETTE (R103). -/
def execReadPalette (start : BitVec 16) (count : Byte) (s : State) : Host.Outcome State Fault Refusal :=
  .next (takeCommand (readPaletteCommand start count) s)

/-- SEND MESSAGE (R141). -/
def execSendMessage (d st k c : Byte) (payload : List Byte) (s : State) : Host.Outcome State Fault Refusal :=
  .next (takeCommand (sendMessageCommand d st k c payload) s)

/-- TAKE MESSAGE (R151). -/
def execTakeMessage (s : State) : Host.Outcome State Fault Refusal := .next (takeCommand takeMessageCommand s)

/-- READ ATTRIBUTE (R127). -/
def execReadAttribute (start count : Byte) (s : State) : Host.Outcome State Fault Refusal :=
  .next (takeCommand (readAttributeCommand start count) s)

/-- WRITE ATTRIBUTE (R128). -/
def execWriteAttribute (index : Byte) (value : Value) (s : State) : Host.Outcome State Fault Refusal :=
  .next (takeCommand (writeAttributeCommand index value) s)

/-- REMOTE READ (R130). -/
def execRemoteRead (target start count : Byte) (s : State) : Host.Outcome State Fault Refusal :=
  .next (takeCommand (remoteCommand target (runFits start.toNat count.toNat 16 64) (.read start count)) s)

/-- REMOTE WRITE (R130). -/
def execRemoteWrite (target index : Byte) (value : Value) (s : State) : Host.Outcome State Fault Refusal :=
  .next (takeCommand (remoteCommand target (decide (index.toNat ≤ 63)) (.write index value)) s)

/-- TAKE RESULT (R134). -/
def execTakeResult (tag : Byte) (s : State) : Host.Outcome State Fault Refusal := .next (takeCommand (takeResultCommand tag) s)

end Sys2Proof.Machine
end

