-- ==== Sys2Proof/Machine/LifeCycle.lean ====
section
/-! DEFINITION. Resets and the life-cycle commands (chapter 1). -/

namespace Sys2Proof.Machine

/-! ### Power-on and pin reset (R1, R2, R170) -/

/-- The station number of the straps: each pin held high counts its weight (R2). -/
def strapNumber (p : Straps) : Station :=
  (if p.stn0 then 1 else 0) + (if p.stn1 then 2 else 0) + (if p.stn2 then 4 else 0) + (if p.stn3 then 8 else 0)
    + (if p.stn4 then 16 else 0)

/-- R1, R156: a transaction open when a reset begins is abandoned; one that CSN is still low for stays so (log 14). -/
def Port.abandon : Port → Port
  | .opened _ _ => .abandoned
  | .abandoned => .abandoned
  | .closed => .closed

/-- R1, R34, R170, R174: what a reset in force does at once: the driver released, the receiver off and with it the silence timer
stopped at zero, the event queue held at nothing, PRESENT and LD0 to LD29 low with no lookup under way (log 34), and a running
application and the installation of a part stopped after the entry being written (log 9). -/
def holdReset (s : State) : State :=
  ((((s.onLif (fun _ => Lif.reset)).onPos (fun p => { p with silence := 0 })).onCpe
    (fun c => { port := c.port.abandon, held := none, events := [] })).onOutputs
    (fun _ => { present := none, ld := 0, lookups := [] })).onPal
      (fun p => { p with bank := p.stoppedBank, installing := [], applications := [] })

/-- R1, R2: a reset ends: the straps are sampled and every unit takes its reset values; FRAME keeps its level, and a
transaction it abandoned stays abandoned until CSN rises (log 14). -/
def endReset (straps : Straps) (s : State) : State :=
  let r := State.afterReset (strapNumber straps) s.frame.level s.free s.pending
  r.onCpe (fun c => { c with port := s.cpe.port.abandon })

/-- The supply comes up. -/
def execPowerOnReset (s : State) : Host.Outcome State Fault Refusal :=
  .next ((holdReset s).onStartup (fun u => { u with powerReset := true }))

/-- The supply is stable. With RESET_N still low the station stays in reset (log 15). -/
def execPowerOnResetEnd (straps : Straps) (s : State) : Host.Outcome State Fault Refusal :=
  .next (if s.startup.pinReset then s.onStartup (fun u => { u with powerReset := false }) else endReset straps s)

/-- RESET_N is driven low. -/
def execPinResetAssert (s : State) : Host.Outcome State Fault Refusal :=
  .next ((holdReset s).onStartup (fun u => { u with pinReset := true }))

/-- RESET_N is released. While a power-on reset is still in force the station stays in reset (log 15). -/
def execPinResetRelease (straps : Straps) (s : State) : Host.Outcome State Fault Refusal :=
  .next (if s.startup.powerReset then s.onStartup (fun u => { u with pinReset := false }) else endReset straps s)

/-! ### The commands of the life cycle (R3, R5, R7, R12) -/

/-- R3: the CONFIGURE command. -/
def configureCommand (p a d h o r : Byte) (s : State) : State × Response :=
  if s.startup.life ≠ .unconfigured then (s, .refused .state)
  else match configOf p a d h o r with
    | none => (s, .refused .range)
    | some c => (s.onStartup (fun u => { u with config := some c, life := .standby }), .done [])

/-- CONFIGURE (R3). -/
def execConfigure (p a d h o r : Byte) (s : State) : Host.Outcome State Fault Refusal :=
  .next (takeCommand (configureCommand p a d h o r) s)

/-- R5: the GO command. The line-busy indication stays as it stands: where a switch-off left it raised, the silence timer is held at 0 until
the first rearming lowers it (R17, R34; log 28). -/
def goCommand (s : State) : State × Response :=
  if s.startup.life ≠ .standby then (s, .refused .state)
  else ((((s.setLife .joinPending).onMem (fun m => { m with joinPending := true })).onLif
    (fun l => { l with receiver := .draining, released := some 0 })).onPos
      (fun q => { q with state := .listening, silence := 0 }), .done [])

/-- GO (R5). -/
def execGo (s : State) : Host.Outcome State Fault Refusal := .next (takeCommand goCommand s)

/-- The packet handed to the LIF is the COMMIT packet. -/
def commitGranted (s : State) : Bool :=
  match s.lif.driver.tx with
  | some tx => tx.cls == .commit
  | none => false

/-- R7: the LEAVE command. A pending COMMIT not yet granted is discarded (R88). -/
def leaveCommand (s : State) : State × Response :=
  match s.startup.life with
  | .member =>
    ((s.setLife .leaving).onAgr (fun a => { a with pendingCommit := if commitGranted s then a.pendingCommit else none }),
     .done [])
  | .joinPending =>
    ((((s.setLife .standby).onMem (fun m => { m with joinPending := false })).onLif Lif.switchOff).onPos Pos.quiet, .done [])
  | .unconfigured => (s, .refused .state)
  | .standby => (s, .refused .state)
  | .leaving => (s, .refused .state)
  | .halted => (s, .refused .state)

/-- LEAVE (R7). -/
def execLeave (s : State) : Host.Outcome State Fault Refusal := .next (takeCommand leaveCommand s)

/-- R12: the values of a station reset; the configuration record, the station number, the bank, the stored attributes, the
frame qualifier and the lookup outputs are kept (R102, R129, R171, R175). -/
def stationReset (s : State) : State :=
  { s with
    startup := { s.startup with life := .standby }
    lif := Lif.reset
    pos := Pos.reset
    mem := Mem.reset s.number
    agr := Agr.reset
    pal := Pal.reset s.pal.stoppedBank
    att := Att.reset s.att.table
    msg := Msg.reset
    cpe := { s.cpe with events := [{ kind := .started, reason := some .restart }] }
    outputs := { s.outputs with present := none } }

/-- R12: the RESTART command. -/
def restartCommand (s : State) : State × Response :=
  if s.startup.life = .unconfigured then (s, .refused .state) else (stationReset s, .done [])

/-- RESTART (R12). -/
def execRestart (s : State) : Host.Outcome State Fault Refusal := .next (takeCommand restartCommand s)

end Sys2Proof.Machine
end

