-- ==== Sys2Proof/Machine/FrameReference.lean ====
section
/-! DEFINITION. The frame reference, the present output and the palette lookup (chapter 10), and the passage of time. -/

namespace Sys2Proof.Machine

/-! ### The frame qualifier (R171) -/

/-- FRAME is reported to have changed to a level. -/
def Qualifier.changed (q : Qualifier) (level : Bool) : Qualifier := { q with level := level, stood := 0 }

/-- FRAME has stood low for 2 µs: WAIT LOW becomes WAIT EDGE. -/
def execFrameLowQualified (s : State) : Host.Outcome State Fault Refusal :=
  .next (if !s.inReset && s.frame.phase == .waitLow then
      s.onFrame (fun q => { q with phase := .waitEdge, level := false, stood := max q.stood Config.frameConfirm })
    else s)

/-- A rising edge: WAIT EDGE becomes CONFIRMING; in the other phases the level alone changes. -/
def execFrameRisingEdge (s : State) : Host.Outcome State Fault Refusal :=
  .next (if s.inReset then s else s.onFrame (fun q =>
    { q.changed true with phase := if q.phase = .waitEdge then .confirming else q.phase }))

/-- FRAME falls during CONFIRMING: the edge is discarded and the qualifier returns to WAIT LOW. -/
def execFrameGlitch (s : State) : Host.Outcome State Fault Refusal :=
  .next (if !s.inReset && s.frame.phase == .confirming then
      s.onFrame (fun q => { q.changed false with phase := .waitLow })
    else s)

/-- FRAME falls: in WAIT LOW the low time is counted afresh; in CONFIRMING the fall is a glitch (log 2). -/
def execFrameFallingEdge (s : State) : Host.Outcome State Fault Refusal :=
  .next (if s.inReset then s else s.onFrame (fun q =>
    { q.changed false with phase := if q.phase = .confirming then .waitLow else q.phase }))

/-- The spacing window closes. -/
def execSpacingWindowClose (s : State) : Host.Outcome State Fault Refusal :=
  .next (if s.inReset then s else s.onFrame (fun q => { q with spacing := none }))

/-! ### The frame pulse (R91 to R93, R109, R110, R172, R173) -/

/-- The PRESENT pulse rises. -/
def Outputs.rise (o : Outputs) : Outputs := { o with present := some 0 }

/-- R172, R173: a frame pulse at a member: AGR, then PAL with the L it leaves, then PRESENT unless an application of this pulse
holds it back. The events of the two units have no stated order (R166). -/
def actOnPulse (s : State) : State :=
  let a := s.agr.pulse s.cfg.deadline s.mem.view
  let q := s.pal.pulse a.1.l s.agr.presents
  let t := ((s.onAgr (fun _ => a.1)).onPal (fun _ => q.1)).raiseBoth a.2 q.2
  if s.agr.presents && !s.pal.applies a.1.l then t.onOutputs Outputs.rise else t

/-- R171, R172: the confirmation ends. With the spacing window closed the pulse is taken and the window opens; an edge qualified
while it is open is discarded. -/
def confirmEdge (s : State) : State :=
  let t := s.onFrame (fun q => { q with phase := .waitLow, stood := max q.stood Config.frameConfirm })
  if s.frame.spacing.isSome then t
  else
    let u := t.onFrame (fun q => { q with spacing := some 0 })
    if s.inView then actOnPulse u else u

/-- FRAME has stayed high for 2 µs in CONFIRMING. -/
def execFramePulse (s : State) : Host.Outcome State Fault Refusal :=
  .next (if !s.inReset && s.frame.phase == .confirming then confirmEdge s else s)

/-! ### Applications, PRESENT and lookups (R173 to R175) -/

/-- R173, R174: the running application writes its last entry, and its PRESENT pulse rises. -/
def completeApplication (s : State) : State :=
  let t := s.onPal Pal.completeApplication
  if s.pal.presentDue then t.onOutputs Outputs.rise else t

/-- The last entry of the running application is written. -/
def execApplicationComplete (s : State) : Host.Outcome State Fault Refusal :=
  .next (if s.inReset then s else completeApplication s)

/-- PRESENT returns low. -/
def execPresentPulseEnd (s : State) : Host.Outcome State Fault Refusal :=
  .next (s.onOutputs (fun o => { o with present := none }))

/-- R175: a rising edge of LCLK, at which an entry is sampled: the entry sampled two edges before is driven on LD0 to LD29. -/
def Outputs.sample (o : Outputs) (entry : Color) : Outputs :=
  match o.lookups with
  | first :: second :: rest => { o with ld := first, lookups := second :: rest ++ [entry] }
  | under => { o with lookups := under ++ [entry] }

/-- A lookup: the index lines are sampled at a rising edge of LCLK, and the entry is driven two edges later (R175; log 8). During a
reset LD0 to LD29 stay low and nothing is sampled (log 34). -/
def execPaletteLookup (index : BitVec 9) (s : State) : Host.Outcome State Fault Refusal :=
  .next (if s.inReset then s else
    (s.onOutputs (fun o => o.sample (s.pal.lookup index.toNat (Config.lookupRace s.free)))).useFree 1)

/-! ### The passage of time (log 1, 24) -/

/-- A running timer after one clock period, held at its limit. -/
def Timer.tick (limit : Nat) (t : Timer) : Timer := t.map (fun n => min limit (n + 1))

/-- The silence timer counts while the receiver is on, the line-busy indication is lowered and the station is not HALTED (R34);
an indication left raised when the receiver was switched off holds it after GO too (log 28). -/
def silenceCounts (s : State) : Bool := s.lif.receiver != .off && !s.lif.lineBusy && s.startup.life != .halted

/-- The POS after one clock period. -/
def Pos.tick (p : Pos) (counts : Bool) (n : Station) : Pos :=
  { p with
    silence := if counts then min (Config.foundingSilence n) (p.silence + 1) else p.silence
    slot := p.slot.map (fun sl => { sl with elapsed := min Config.window (sl.elapsed + 1) })
    turnaround := Timer.tick Config.window p.turnaround
    hold := Timer.tick Config.busHold p.hold }

/-- How many entries the running application writes in a clock period: one, but for the last, which its row of the table writes
(R174). -/
def Application.pace (a : Application) : Nat := if a.writes.length ≤ 1 then 0 else 1

/-- R174: in each clock period one entry of the part being installed is written, and one of the running application, whose last is
written by APPLICATION_COMPLETE. -/
def Pal.tick (p : Pal) : Pal :=
  let p' := { p with
    wait := Timer.tick Config.snapshotWait p.wait
    bank := p.bank.writeAll (p.installing.take 1)
    installing := p.installing.drop 1 }
  match p.applications with
  | [] => p'
  | a :: rest => { p' with
      bank := p'.bank.writeAll (a.writes.take a.pace)
      applications := { a with writes := a.writes.drop a.pace } :: rest }

/-- A request after one clock period (R132). -/
def Request.tick (r : Request) : Request :=
  match r.state with
  | .awaitingReturn n => { r with state := .awaitingReturn (min Config.requestTimeout (n + 1)) }
  | .queued => r
  | .done _ => r
  | .failed _ => r

/-- The frame qualifier after one clock period. -/
def Qualifier.tick (q : Qualifier) : Qualifier :=
  { q with stood := min Config.frameConfirm (q.stood + 1), spacing := Timer.tick Config.spacing q.spacing }

/-- One period of the reference clock, 20 ns: the timers count, and one entry is written of the running application and of the part
being installed. In a reset nothing counts. -/
def tick (s : State) : State :=
  if s.inReset then s
  else
    ((((((s.onPos (fun p => p.tick (silenceCounts s) s.number)).onLif
      (fun l => { l with released := Timer.tick Config.guard l.released })).onPal Pal.tick).onAtt
      (fun a => { a with requests := a.requests.map Request.tick })).onFrame Qualifier.tick).onOutputs
      (fun o => { o with present := Timer.tick Config.frameConfirm o.present }))

end Sys2Proof.Machine
end

