-- ==== Sys2Proof/Machine/Dispatch.lean ====
section
/-! DEFINITION. One arm per row of the table, each a direct call of the row's meaning. -/

namespace Sys2Proof.Machine

def exec (i : Instr) (s : State) : Host.Outcome State Fault Refusal :=
  match i with
  | .powerOnReset => Sys2Proof.Machine.execPowerOnReset s
  | .powerOnResetEnd x0 => Sys2Proof.Machine.execPowerOnResetEnd x0 s
  | .pinResetAssert => Sys2Proof.Machine.execPinResetAssert s
  | .pinResetRelease x0 => Sys2Proof.Machine.execPinResetRelease x0 s
  | .transactionOpen => Sys2Proof.Machine.execTransactionOpen s
  | .refusedFormat x0 => Sys2Proof.Machine.execRefusedFormat x0 s
  | .noOperation => Sys2Proof.Machine.execNoOperation s
  | .readState => Sys2Proof.Machine.execReadState s
  | .readView => Sys2Proof.Machine.execReadView s
  | .readReadiness x0 => Sys2Proof.Machine.execReadReadiness x0 s
  | .takeEvent => Sys2Proof.Machine.execTakeEvent s
  | .configure x0 x1 x2 x3 x4 x5 => Sys2Proof.Machine.execConfigure x0 x1 x2 x3 x4 x5 s
  | .go => Sys2Proof.Machine.execGo s
  | .leave => Sys2Proof.Machine.execLeave s
  | .restart => Sys2Proof.Machine.execRestart s
  | .acknowledgeFault => Sys2Proof.Machine.execAcknowledgeFault s
  | .ready x0 => Sys2Proof.Machine.execReady x0 s
  | .submitPalette x0 x1 x2 => Sys2Proof.Machine.execSubmitPalette x0 x1 x2 s
  | .readPalette x0 x1 => Sys2Proof.Machine.execReadPalette x0 x1 s
  | .sendMessage x0 x1 x2 x3 x4 => Sys2Proof.Machine.execSendMessage x0 x1 x2 x3 x4 s
  | .takeMessage => Sys2Proof.Machine.execTakeMessage s
  | .readAttribute x0 x1 => Sys2Proof.Machine.execReadAttribute x0 x1 s
  | .writeAttribute x0 x1 => Sys2Proof.Machine.execWriteAttribute x0 x1 s
  | .remoteRead x0 x1 x2 => Sys2Proof.Machine.execRemoteRead x0 x1 x2 s
  | .remoteWrite x0 x1 x2 => Sys2Proof.Machine.execRemoteWrite x0 x1 x2 s
  | .takeResult x0 => Sys2Proof.Machine.execTakeResult x0 s
  | .activity => Sys2Proof.Machine.execActivity s
  | .receiverRearm x0 => Sys2Proof.Machine.execReceiverRearm x0 s
  | .unreadablePacketHeard x0 => Sys2Proof.Machine.execUnreadablePacketHeard x0 s
  | .lifBeginDriving => Sys2Proof.Machine.execLifBeginDriving s
  | .packetSent => Sys2Proof.Machine.execPacketSent s
  | .contention x0 => Sys2Proof.Machine.execContention x0 s
  | .handoverHeard x0 x1 x2 x3 => Sys2Proof.Machine.execHandoverHeard x0 x1 x2 x3 s
  | .claimHeard x0 x1 => Sys2Proof.Machine.execClaimHeard x0 x1 s
  | .inviteHeard x0 x1 => Sys2Proof.Machine.execInviteHeard x0 x1 s
  | .joinHeard x0 x1 x2 => Sys2Proof.Machine.execJoinHeard x0 x1 x2 s
  | .leaveHeard x0 x1 => Sys2Proof.Machine.execLeaveHeard x0 x1 s
  | .statusHeard x0 x1 => Sys2Proof.Machine.execStatusHeard x0 x1 s
  | .commitHeard x0 x1 => Sys2Proof.Machine.execCommitHeard x0 x1 s
  | .paletteHeard x0 x1 => Sys2Proof.Machine.execPaletteHeard x0 x1 s
  | .snapshotRequestHeard x0 x1 => Sys2Proof.Machine.execSnapshotRequestHeard x0 x1 s
  | .snapshotHeard x0 x1 x2 => Sys2Proof.Machine.execSnapshotHeard x0 x1 x2 s
  | .replayHeard x0 x1 => Sys2Proof.Machine.execReplayHeard x0 x1 s
  | .messageHeard x0 x1 x2 x3 => Sys2Proof.Machine.execMessageHeard x0 x1 x2 x3 s
  | .readHeard x0 x1 x2 x3 => Sys2Proof.Machine.execReadHeard x0 x1 x2 x3 s
  | .writeHeard x0 x1 x2 x3 => Sys2Proof.Machine.execWriteHeard x0 x1 x2 x3 s
  | .readReturnHeard x0 x1 x2 x3 => Sys2Proof.Machine.execReadReturnHeard x0 x1 x2 x3 s
  | .ackHeard x0 x1 x2 x3 => Sys2Proof.Machine.execAckHeard x0 x1 x2 x3 s
  | .replyWindowEnd => Sys2Proof.Machine.execReplyWindowEnd s
  | .turnaroundWindowEnd => Sys2Proof.Machine.execTurnaroundWindowEnd s
  | .claimDelayExpiry => Sys2Proof.Machine.execClaimDelayExpiry s
  | .foundingSilenceExpiry => Sys2Proof.Machine.execFoundingSilenceExpiry s
  | .busHoldIntervalExpiry => Sys2Proof.Machine.execBusHoldIntervalExpiry s
  | .snapshotWaitExpiry => Sys2Proof.Machine.execSnapshotWaitExpiry s
  | .requestTimeout x0 => Sys2Proof.Machine.execRequestTimeout x0 s
  | .frameLowQualified => Sys2Proof.Machine.execFrameLowQualified s
  | .frameRisingEdge => Sys2Proof.Machine.execFrameRisingEdge s
  | .frameGlitch => Sys2Proof.Machine.execFrameGlitch s
  | .framePulse => Sys2Proof.Machine.execFramePulse s
  | .spacingWindowClose => Sys2Proof.Machine.execSpacingWindowClose s
  | .applicationComplete => Sys2Proof.Machine.execApplicationComplete s
  | .presentPulseEnd => Sys2Proof.Machine.execPresentPulseEnd s
  | .paletteLookup x0 => Sys2Proof.Machine.execPaletteLookup x0 s
  | .frameFallingEdge => Sys2Proof.Machine.execFrameFallingEdge s

end Sys2Proof.Machine
end

