-- ==== Sys2Proof/Safety.lean ====
section
/-! DEFINITION. What a step must keep true, and when a command term is accepted: the invariants of the station, unit by unit,
each from the rule that states it. -/

namespace Sys2Proof.Machine

/-! ### Conditions on the state under which commands act -/

/-- The state after a command that owns no state but its response. -/
def answered (r : Response) (s : State) : State := s.onCpe (fun c => c.close (some r))

/-- What hearing a readable packet changes, outside a running turnaround window, before any unit acts on its contents: the receiver
drains or has rearmed, the last receive error record takes a class, the silence timer is zero, and an awaited answer that the packet
breaks has failed (R16, R26, R34, R121). -/
def heardBy (k : Packet) (s : State) : State :=
  let t := (s.onLif (fun l => (l.frameEnds (classesOf (.readable k))).noteClasses (classesOf (.readable k)))).onPos
    (fun p => { p with silence := 0 })
  if s.inView then t.onPal (fun p => p.breakAnswer s.number k) else t

/-- A station in LISTENING that is not HALTED hears a packet from another station. -/
def listensTo (h : Head) (s : State) : Bool :=
  canHear s && s.startup.life != .halted && s.pos.state == .listening && h.source != s.number

/-- A station that is not HALTED hears a packet from another station, in any possession state but AWAITING REPLY and, while the
turnaround window runs, HANDING OVER. -/
def takesPacket (h : Head) (s : State) : Bool :=
  canHear s && s.startup.life != .halted && s.pos.state != .awaitingReply &&
    (s.pos.state != .handingOver || s.pos.turnaround.isNone) && h.source != s.number

/-! ### What ends with a membership and with an answer (R110, R133, R138, R153) -/

/-- A request after the station has left the view: one unfinished has failed with LEFT. -/
def requestLeft (r : Request) : Request := if r.unfinished then { r with state := .failed .left } else r

/-- The events of a leave after DROPPED, LEFT or HALTED: the unfinished requests in order of age, then the held message, the retry
record and the two queues. -/
def leaveEvents (s : State) : List EventRecord :=
  (s.att.requests.filter Request.unfinished).map (fun r =>
    { kind := .requestFailed, station := some r.target, tag := some r.tag, reason := some .left }) ++
  (s.msg.held.toList ++ s.msg.retry.toList ++ s.msg.priority ++ s.msg.bulk).map (fun m =>
    { kind := .messageFailed, tag := some m.tag, reason := some .left
      station := match m.dest with
        | .station n => some n
        | .all => none })

/-- R110: the PAL once an answer has ended, sent whole or cut off: the record and the mark are cleared, and every record then due
against L is applied with no PRESENT pulse. -/
def answerEnded (p : Pal) (l : Seq) : Pal :=
  let due := p.store.filter (fun r => decide (r.effective ≤ l))
  let q := { p with owed := none, answer := none }
  if p.state = .normal ∧ due ≠ [] then { q with
    bank := p.bank.writeAll p.installing
    installing := []
    store := p.store.filter (fun r => !decide (r.effective ≤ l))
    applications := p.applications ++ [{
      writes := due.flatMap (fun r => r.entries.zipIdx.map (fun e => (r.start.toNat + e.2, e.1)))
      present := false }] }
  else q

/-- The units AGR, PAL, ATT and MSG after a leave (R73, R100, R122, R138, R153). -/
def unitsLeft (s : State) : Agr × Pal × Att × Msg :=
  (Agr.reset,
   { Pal.reset s.pal.bank with
     installing := s.pal.installing, applications := s.pal.applications, requestTag := s.pal.requestTag },
   { s.att with requests := s.att.requests.map requestLeft, returns := [] },
   { Msg.reset with inbound := s.msg.inbound, tagCounter := s.msg.tagCounter })

/-! ### What a member takes with it when it leaves the view (R79, R82, R106, R115, R119, R122, R133, R136, R142, R150, R152) -/

/-- An outbound record is directed to a station of a set. -/
def isFor (gone : StationSet) (m : OutMessage) : Bool :=
  match m.dest with
  | .station d => inSet d gone
  | .all => false

/-- The PAL after members are removed: their credit records are dropped, an answer owed to one of them is dropped unless it is being
sent (R119; log 35), and an outstanding request to one of them has ended (R115). -/
def palWithout (gone : StationSet) (p : Pal) : Pal :=
  let q := { p with
    credits := p.credits.filter (fun e => !gone.getLsbD e.1)
    owed := if p.answer = none then p.owed.filter (fun o => !inSet o.requester gone) else p.owed }
  if p.outstanding = true ∧ p.candidate.any (fun n => inSet n gone) = true then { q with
    outstanding := false, wait := none, install := none
    state := if p.state = .receiving then .resync else p.state
    store := if p.state = .receiving then [] else p.store }
  else q

/-- The units AGR, PAL, ATT and MSG after members are removed. -/
def unitsWithout (gone : StationSet) (s : State) : Agr × Pal × Att × Msg :=
  let kept := fun (n : Nat) => !gone.getLsbD n
  ({ s.agr with table := s.agr.table.filter (fun e => kept e.1), inStep := s.agr.inStep &&& ~~~ gone },
   palWithout gone s.pal,
   { s.att with
     requests := s.att.requests.map (fun r =>
       if r.unfinished = true ∧ inSet r.target gone = true then { r with state := .failed .targetLost } else r)
     returns := s.att.returns.filter (fun r => !inSet r.requester gone) },
   { s.msg with
     retry := s.msg.retry.filter (fun m => !isFor gone m)
     priority := s.msg.priority.filter (fun m => !isFor gone m)
     bulk := s.msg.bulk.filter (fun m => !isFor gone m)
     credits := s.msg.credits.filter (fun e => kept e.1)
     filter := s.msg.filter.filter (fun e => kept e.1) })

/-- The ATT's events when members are removed, in order of age (R133). -/
def requestsLost (gone : StationSet) (a : Att) : List EventRecord :=
  (a.requests.filter (fun r => r.unfinished && inSet r.target gone)).map (fun r =>
    { kind := .requestFailed, station := some r.target, tag := some r.tag, reason := some .targetLost })

/-- The MSG's events when members are removed: the retry record, then the two queues (R152). -/
def messagesLost (gone : StationSet) (g : Msg) : List EventRecord :=
  ((g.retry.toList ++ g.priority ++ g.bulk).filter (isFor gone)).map (fun m =>
    { kind := .messageFailed, tag := some m.tag, reason := some .destinationLost
      station := match m.dest with
        | .station n => some n
        | .all => none })

/-- The events of two units raised at one moment: each unit's in their order, merged in any way (R166; log 5). -/
def IsMerge (xs ys es : List EventRecord) : Prop := xs.Sublist es ∧ ys.Sublist es ∧ es.Perm (xs ++ ys)

/-! ### What a STATUS packet carries and does (R78, R80 to R84, R106, R111) -/

/-- R78: the contents of the station's STATUS packet as its state stands. -/
def reportOf (c : ConfigRecord) (s : State) : StatusBody :=
  { l := s.agr.l, r := s.agr.r, c := s.agr.c, participant := c.participant, palette := s.pal.state
    paletteCredit := byte (if s.pal.state = .normal then 16 - s.pal.store.length else 0)
    messageCredit := byte (8 - s.msg.inbound.length), e := s.pal.e }

/-- R80 to R84: the AGR of a station in the view, before and after a good STATUS packet of a member, and the event it raises. The
source's entry is what the packet carries; a higher C is adopted and makes the in-step set unknown; over a known set a participant
that has caught up joins it; an unknown set is rebuilt once every member is heard and every participant among them caught up. A
LAGGING station that thereby joins the set is IN STEP again, with its event. -/
def TakesStatus (own : Station) (view : StationSet) (src : Station) (b : StatusBody) (a a' : Agr) (es : List EventRecord) : Prop :=
  let higher := a.c < b.c
  let catchesUp := ¬ higher ∧ a.known = true ∧ b.participant = true ∧ a.c ≤ b.l ∧ inSet src a.inStep = false
  let rebuilds := (higher ∨ a.known = false) ∧ ∀ n, inSet n view = true →
    ∃ q rep, a'.entry n = some ⟨q, some rep⟩ ∧ (q = some true → a'.c ≤ rep.l)
  let takenBack := a.agreement = .lagging ∧ (catchesUp ∧ src = own ∨ rebuilds ∧ inSet own a'.inStep = true)
  a' = { a with
    table := a'.table, inStep := a'.inStep, known := a'.known, agreement := a'.agreement
    c := if higher then b.c else a.c
    wait := if higher then 0 else a.wait
    deadlineReported := if higher then false else a.deadlineReported } ∧
  a'.entry src = some { participant := some b.participant, report := some { l := b.l, r := b.r, c := b.c, palette := b.palette } } ∧
  (∀ n, n ≠ src → a'.entry n = a.entry n) ∧
  (¬ higher → a.known = true → a'.known = true) ∧
  (catchesUp → ∀ n, inSet n a'.inStep = true ↔ inSet n a.inStep = true ∨ n = src) ∧
  (¬ higher → a.known = true → ¬ catchesUp → a'.inStep = a.inStep) ∧
  (higher ∨ a.known = false → (a'.known = true ↔ rebuilds)) ∧
  (rebuilds → ∀ n, inSet n a'.inStep = true ↔ inSet n view = true ∧ ∃ rep, a'.entry n = some ⟨some true, some rep⟩) ∧
  (takenBack → a'.agreement = .inStep ∧ es = [{ kind := .inStep, sequence := some a'.c }]) ∧
  (¬ takenBack → a'.agreement = a.agreement ∧ es = [])

/-- R106, R111, R112: the PAL after a good STATUS packet of a member, and its event: the source's credit record, then, in NORMAL, the
divergence that an E ahead of the station's shows. -/
def palTakesStatus (src : Station) (b : StatusBody) (p : Pal) : Pal × List EventRecord :=
  let q := { p with credits := p.credits.map (fun e => (e.1, if e.1 = src.val then min 16 b.paletteCredit.toNat else e.2)) }
  if p.state = .normal ∧ b.palette = .normal ∧ 1 ≤ (b.e - p.e).toNat ∧ (b.e - p.e).toNat ≤ 32767 then
    ({ q with state := .resync, store := [], outbound := [], owed := none, candidate := none, outstanding := false, wait := none,
              install := none, answer := none },
     [{ kind := .paletteDiverged, station := some src, reason := some .ahead }])
  else (q, [])

/-! ### The order of the classes (R39, R40) -/

/-- A class is the one of the first condition of a list that holds. -/
def FirstOf : List (Prop × TxClass) → TxClass → Prop
  | [], _ => True
  | (offers, cls) :: rest, k => (offers → k = cls) ∧ (¬ offers → FirstOf rest k)

/-- A station is the successor of another in a view: the lowest member above it, or else the lowest member (R45). -/
def IsSuccessor (own : Station) (view : StationSet) (next : Station) : Prop :=
  inSet next view = true ∧
    ((own < next ∧ ∀ n, inSet n view = true → own < n → next ≤ n) ∨
      (∀ n, inSet n view = true → n ≤ own) ∧ ∀ n, inSet n view = true → next ≤ n)

/-- A member that may be asked for its palette: another one, heard, and NORMAL (R113). -/
def MayBeAsked (s : State) (n : Station) : Prop :=
  n ≠ s.number ∧ inSet n s.mem.view = true ∧ ∃ q rep, s.agr.entry n = some ⟨q, some rep⟩ ∧ rep.palette = .normal

/-! ### Invariants -/

/-- R75: L ≤ R and L ≤ C. -/
def sequencesOrdered (s : State) : Bool := decide (s.agr.l ≤ s.agr.r) && decide (s.agr.l ≤ s.agr.c)

/-- The capacities of the queues and the ranges of the counts (R92, R104, R106, R130, R135, R141, R142, R151, R169, R175). -/
def withinCapacity (s : State) : Bool :=
  decide (s.cpe.events.length ≤ eventCapacity) && decide (s.pal.outbound.length ≤ outboundCapacity) &&
    decide (s.att.requests.length ≤ requestCapacity) && decide (s.att.returns.length ≤ returnCapacity) &&
    decide (s.msg.priority.length ≤ priorityCapacity) && decide (s.msg.bulk.length ≤ bulkCapacity) &&
    decide (s.msg.inbound.length ≤ inboundCapacity) && decide (s.agr.wait ≤ 63) &&
    s.pal.credits.all (fun e => decide (e.2 ≤ storeCapacity)) && s.msg.credits.all (fun e => decide (e.2 ≤ inboundCapacity)) &&
    decide (s.outputs.lookups.length ≤ 2)

/-- R107, R112, R120, R121: the pending store against the palette state: at most 16 records in NORMAL, none in RESYNC, the
replays appended so far in RECEIVING. -/
def storeAgrees (s : State) : Bool :=
  match s.pal.state with
  | .normal => decide (s.pal.store.length ≤ storeCapacity)
  | .resync => s.pal.store.isEmpty
  | .receiving =>
    match s.pal.install with
    | some i => decide (s.pal.store.length = i.replays) && decide (i.replays ≤ i.n) && decide (i.n ≤ storeCapacity)
    | none => false

/-- R110, R117, R118: an answer is owed in NORMAL alone, and one that is being sent is owed and has a packet still to send. -/
def answerAgrees (s : State) : Bool :=
  (s.pal.owed.isNone || s.pal.state == .normal) &&
    (match s.pal.answer with
     | none => true
     | some a => s.pal.owed.isSome && decide (a.next < 8 + a.n) && decide (a.n ≤ s.pal.store.length))

/-- R102: the live bank is in its canonical form. -/
def bankCanonical (s : State) : Bool := s.pal.bank.wf

/-- The other tables are in rising order of their indices. -/
def tablesSorted (s : State) : Bool :=
  Table.sorted s.agr.table && Table.sorted s.pal.credits && Table.sorted s.msg.credits && Table.sorted s.msg.filter &&
    Table.sorted s.att.table

/-- R79, R106, R142: one readiness entry and one record of each credit for each member of the view, and for no other station. -/
def recordsMatchView (s : State) : Bool :=
  stations.all (fun n =>
    ((s.agr.entry n).isSome == inSet n s.mem.view) && ((Table.get? s.pal.credits n.val).isSome == inSet n s.mem.view) &&
      ((Table.get? s.msg.credits n.val).isSome == inSet n s.mem.view))

/-- R58: in MEMBER and LEAVING the view contains the station, elsewhere it is empty. -/
def viewAgrees (s : State) : Bool := if s.inView then inSet s.number s.mem.view else decide (s.mem.view = 0)

/-- R33, R42, R45: only a station in the view has a slot open, hands over, or has a packet of its own possession for the LIF. -/
def possessionInView (s : State) : Bool :=
  s.inView || (s.pos.slot.isNone && s.pos.handover.isNone &&
    (match s.lif.driver.tx with
     | some tx => tx.cls == .reply
     | none => true))

/-- R59: the join-pending flag is set exactly in JOIN PENDING. -/
def joinPendingAgrees (s : State) : Bool := s.mem.joinPending == (s.startup.life == .joinPending)

/-- R3, R4: the configuration record is absent exactly in UNCONFIGURED. -/
def configAgrees (s : State) : Bool := s.startup.config.isNone == (s.startup.life == .unconfigured)

/-- R16: the receiver is on in JOIN PENDING, MEMBER, LEAVING and HALTED; during a reset it is off (R1). -/
def receiverAgrees (s : State) : Bool := (s.lif.receiver != .off) == (!s.inReset && s.startup.life.receiverOn)

/-- R1, R8, R10, R12, R57: the possession state is QUIET exactly in UNCONFIGURED, STANDBY and HALTED. -/
def quietAgrees (s : State) : Bool :=
  (s.pos.state == .quiet) == (s.startup.life == .unconfigured || s.startup.life == .standby || s.startup.life == .halted)

/-- The possession states in which a packet stands with the LIF (R33). -/
def Possession.mayDrive : Possession → Bool
  | .possessing => true
  | .handingOver => true
  | .replying => true
  | .quiet => false
  | .listening => false
  | .awaitingReply => false
  | .busHold => false

/-- R32, R33: a packet stands with the LIF only outside a reset, in JOIN PENDING, MEMBER or LEAVING, in POSSESSING, HANDING OVER
or REPLYING, and not while a turnaround window runs; the window runs in HANDING OVER alone, a slot is open in AWAITING REPLY alone. -/
def driverAgrees (s : State) : Bool :=
  (s.lif.driver.tx.isNone ||
    (!s.inReset && (s.inView || s.startup.life == .joinPending) && s.pos.state.mayDrive && s.pos.turnaround.isNone)) &&
    (s.pos.turnaround.isNone || s.pos.state == .handingOver) && (s.pos.slot.isNone || s.pos.state == .awaitingReply)

/-- Everything a step keeps. -/
def stationInvariant (s : State) : Bool :=
  sequencesOrdered s && withinCapacity s && storeAgrees s && answerAgrees s && bankCanonical s && tablesSorted s && recordsMatchView s &&
    viewAgrees s && possessionInView s && joinPendingAgrees s && configAgrees s && receiverAgrees s && quietAgrees s &&
    driverAgrees s

end Sys2Proof.Machine
end

