-- ==== Sys2Proof/Certificates/Slice0/Obligations.lean ====
section
/-! DEFINITION. The statements for the provers, by chapter: the queue and the resets, the control port, the line, the units, the timers,
the frame reference, the encodings and the invariants. -/

section
open Sys2Proof Sys2Proof.Machine

/-! ### The queue and the passage of time -/

/-- The command at the front of the queue is the one a step runs, over the rest of the queue (the block's own convention, log 1). -/
def Obligations.StepRunsTheFrontCommand : Prop :=
  ∀ (c : Instr) (rest : List Instr) (s : State),
    step { s with pending := c :: rest } = exec c { s with pending := rest }

/-- With no command waiting a step is one clock period (the model's choice, log 1): outside a reset the running timers count up to their
limits (log 24), the silence timer while the line is quiet, and one entry is written of the SNAPSHOT part being installed (log 9) and of
the running application, but for its last entry, which APPLICATION_COMPLETE writes; nothing else changes. During a reset nothing changes. -/
def Obligations.IdleStepIsOneClockPeriod : Prop :=
  ∀ s : State, s.pending = [] →
    (s.inReset = true → step s = .next s) ∧
    (s.inReset = false → ∃ t, step s = .next t ∧
      t.startup = s.startup ∧ t.mem = s.mem ∧ t.agr = s.agr ∧ t.msg = s.msg ∧ t.cpe = s.cpe ∧ t.free = s.free ∧ t.pending = [] ∧
      t.pos.state = s.pos.state ∧ t.pos.batch = s.pos.batch ∧ t.pos.handover = s.pos.handover ∧ t.pos.fault = s.pos.fault ∧
      t.pos.silence = (if s.lif.receiver ≠ .off ∧ s.lif.lineBusy = false ∧ s.startup.life ≠ .halted
        then min (Config.foundingSilence s.startup.number) (s.pos.silence + 1) else s.pos.silence) ∧
      t.pos.slot = s.pos.slot.map (fun sl => { sl with elapsed := min Config.window (sl.elapsed + 1) }) ∧
      t.pos.turnaround = s.pos.turnaround.map (fun n => min Config.window (n + 1)) ∧
      t.pos.hold = s.pos.hold.map (fun n => min Config.busHold (n + 1)) ∧
      t.lif = { s.lif with released := s.lif.released.map (fun n => min Config.guard (n + 1)) } ∧
      t.pal = { s.pal with
        wait := s.pal.wait.map (fun n => min Config.snapshotWait (n + 1))
        bank := (s.pal.bank.writeAll (s.pal.installing.take 1)).writeAll (match s.pal.applications with
          | [] => []
          | a :: _ => if 2 ≤ a.writes.length then a.writes.take 1 else [])
        installing := s.pal.installing.drop 1
        applications := match s.pal.applications with
          | [] => []
          | a :: rest => (if 2 ≤ a.writes.length then { a with writes := a.writes.drop 1 } else a) :: rest } ∧
      t.att = { s.att with requests := s.att.requests.map (fun r => { r with state := match r.state with
        | .awaitingReturn n => .awaitingReturn (min Config.requestTimeout (n + 1))
        | other => other }) } ∧
      t.frame = { s.frame with stood := min Config.frameConfirm (s.frame.stood + 1),
                               spacing := s.frame.spacing.map (fun n => min Config.spacing (n + 1)) } ∧
      t.outputs = { s.outputs with present := s.outputs.present.map (fun n => min Config.frameConfirm (n + 1)) })

/-! ### Resets (chapter 1 and each chapter's table of values) -/

/-- The values every unit holds at the end of a power-on or pin reset, for every station number, FRAME level, count of free values
and queue (R1, R2, R32, R57, R60, R100, R102, R123, R129, R138, R154, R161, R170, R171, R173, R175). The state that runs start from
is such a state, with every strap low and FRAME low (the model's choices, log 3 and log 4), no free value taken (log 5) and no command
waiting. The attributes 0 to 7 are formed when they are read (log 33), and LD0 to LD29 stay low with no lookup under way (log 34). -/
def Obligations.ResetValues : Prop :=
  State.reset = State.afterReset 0 false 0 [] ∧
  ∀ (number : Station) (level : Bool) (free : Nat) (pending : List Instr),
    let r := State.afterReset number level free pending
    (r.inReset = false ∧ r.startup.life = .unconfigured ∧ r.startup.config = none ∧ r.startup.number = number) ∧
    (r.lif.receiver = .off ∧ r.lif.lineBusy = false ∧ r.lif.lastError = none ∧ r.lif.driver = .released) ∧
    (r.pos.state = .quiet ∧ r.pos.silence = 0 ∧ r.pos.handover = none ∧ r.pos.batch = Batch.idle ∧ r.pos.slot = none ∧
      r.pos.turnaround = none ∧ r.pos.hold = none ∧ r.pos.fault = none) ∧
    (r.mem.view = 0 ∧ anchor r.mem.view = none ∧ r.mem.cursor = number ∧ r.mem.joinPending = false) ∧
    (r.agr.l = 0 ∧ r.agr.r = 0 ∧ r.agr.c = 0 ∧ r.agr.table = [] ∧ r.agr.inStep = 0 ∧ r.agr.known = false ∧ r.agr.wait = 0 ∧
      r.agr.deadlineReported = false ∧ r.agr.agreement = .outside ∧ r.agr.pendingCommit = none) ∧
    ((∀ i, r.pal.bank.read i = 0) ∧ r.pal.store = [] ∧ r.pal.outbound = [] ∧ r.pal.e = 0 ∧ r.pal.credits = [] ∧
      r.pal.state = .resync ∧ r.pal.candidate = none ∧ r.pal.outstanding = false ∧ r.pal.requestTag = 0 ∧ r.pal.wait = none ∧
      r.pal.owed = none ∧ r.pal.deferral = false ∧ r.pal.installing = [] ∧ r.pal.applications = [] ∧ r.pal.install = none) ∧
    ((∀ i, i < 8 → (readAttr r i).writer = .part) ∧ (∀ i, 8 ≤ i → readAttr r i = ⟨0, .localPort⟩) ∧ r.att.requests = [] ∧
      r.att.returns = [] ∧ r.att.tagCounter = 0) ∧
    (r.msg.priority = [] ∧ r.msg.bulk = [] ∧ r.msg.retry = none ∧ r.msg.inbound = [] ∧ r.msg.credits = [] ∧ r.msg.filter = [] ∧
      r.msg.tagCounter = 0) ∧
    (r.cpe.port = .closed ∧ r.cpe.held = none ∧
      r.cpe.events = [⟨.started, none, none, none, some .power, none, false⟩] ∧ attnN r = false) ∧
    (r.frame.phase = .waitLow ∧ r.frame.spacing = none ∧ r.frame.level = level ∧ presentHigh r = false ∧ r.outputs.ld = 0 ∧
      r.outputs.lookups = []) ∧
    r.pending = pending

/-- POWER_ON_RESET and PIN_RESET_ASSERT (R1, R34, R156, R170, R174, R175): driver, receiver, outputs and event queue as a reset in force
holds them. With the driver and the receiver the whole LIF takes its reset values, the last receive error record too, with the receiver
the silence timer is zero, and with the port the held response is empty, all when the reset begins (log 16). A running application stops
after the entry being written, and so does the installation of a SNAPSHOT part (log 9). The lookups under way are discarded (log 34). The
rest of every unit stays as it was until the reset ends (log 16). During a reset no transaction and no command is taken, nor is one taken
at the end of a transaction whose CSN stood low in a reset (log 14). -/
def Obligations.ResetInForceHoldsTheOutputs : Prop :=
  (∀ (i : Instr) (s : State), (encodeFrame i).isSome = true → (s.inReset = true ∨ s.cpe.port = .abandoned) →
    exec i s = .next { s with cpe := { s.cpe with port := .closed } }) ∧
  (∀ s : State, s.inReset = true → exec .transactionOpen s = .next { s with cpe := { s.cpe with port := .abandoned } }) ∧
  ∀ (s : State) (c : Instr), (c = .powerOnReset ∨ c = .pinResetAssert) → ∃ t, exec c s = .next t ∧
    t.startup = (if c = .powerOnReset then { s.startup with powerReset := true } else { s.startup with pinReset := true }) ∧
    t.inReset = true ∧
    t.lif = { receiver := .off, lineBusy := false, lastError := none, driver := .released, released := none } ∧
    attnN t = true ∧ presentHigh t = false ∧ t.outputs.ld = 0 ∧ t.outputs.lookups = [] ∧ sdoDriven t = false ∧ sdo t = none ∧
    t.cpe.events = [] ∧ t.cpe.held = none ∧
    t.cpe.port = (match s.cpe.port with
      | .closed => .closed
      | _ => .abandoned) ∧
    t.pal = { s.pal with
      bank := (s.pal.bank.writeAll (s.pal.installing.take 1)).writeAll (match s.pal.applications with
        | [] => []
        | a :: _ => a.writes.take 1)
      installing := [], applications := [] } ∧
    t.pos = { s.pos with silence := 0 } ∧ t.mem = s.mem ∧ t.agr = s.agr ∧ t.att = s.att ∧ t.msg = s.msg ∧ t.frame = s.frame ∧
    t.free = s.free ∧ t.pending = s.pending

/-- POWER_ON_RESET_END and PIN_RESET_RELEASE: with no other reset in force every unit takes its reset values and the station number is
the sum of the weights of the straps held high (R2); a transaction the reset abandoned stays abandoned (log 14). With the other
reset still in force the station stays in reset (log 15). -/
def Obligations.ResetEndSamplesTheStraps : Prop :=
  ∀ (p : Straps) (s : State),
    (∃ n : Station,
      n.val = (if p.stn0 then 1 else 0) + (if p.stn1 then 2 else 0) + (if p.stn2 then 4 else 0) + (if p.stn3 then 8 else 0)
        + (if p.stn4 then 16 else 0) ∧
      (s.startup.pinReset = false → exec (.powerOnResetEnd p) s = .next ((State.afterReset n s.frame.level s.free s.pending).onCpe
        (fun c => { c with port := match s.cpe.port with | .closed => .closed | _ => .abandoned }))) ∧
      (s.startup.powerReset = false → exec (.pinResetRelease p) s = .next ((State.afterReset n s.frame.level s.free s.pending).onCpe
        (fun c => { c with port := match s.cpe.port with | .closed => .closed | _ => .abandoned })))) ∧
    (s.startup.pinReset = true → exec (.powerOnResetEnd p) s = .next { s with startup := { s.startup with powerReset := false } }) ∧
    (s.startup.powerReset = true → exec (.pinResetRelease p) s = .next { s with startup := { s.startup with pinReset := false } })

/-! ### The control port (chapter 9) -/

/-- TRANSACTION_OPEN (R156, R157): the held response moves whole into the output stream, a length byte and as many response bytes, and is
empty from then on; an empty one is a length byte of 0. While the transaction is open SDO carries the bits of the stream, each byte most
significant bit first, then zero bits, and the bits of SDI are gathered for the judgement at its end; while CSN is high SDO is
released. -/
def Obligations.TransactionOpenMovesTheHeldResponse : Prop :=
  (∀ s : State, s.inReset = false → sdoDriven s = false → sdo s = none ∧ ∃ t,
    exec .transactionOpen s = .next t ∧ t = { s with cpe := { s.cpe with port := .opened (outStream s.cpe.held) [], held := none } } ∧
    sdoDriven t = true) ∧
  outStream none = [0] ∧
  (∀ r : Response, r.bytes.length ≤ 255 → ∃ n : Byte, n.toNat = r.bytes.length ∧ outStream (some r) = n :: r.bytes) ∧
  ∀ (s : State) (out : List Byte) (sdi : List Bool),
    let t := { s with cpe := { s.cpe with port := (Port.opened out []).clockAll sdi } }
    t.cpe.port.row = some (portRow sdi) ∧
    (∀ before (b : Byte) after (j : Nat), out = before ++ b :: after → j < 8 → sdi.length = 8 * before.length + j →
      sdo t = some (b.getLsbD (7 - j))) ∧
    (8 * out.length ≤ sdi.length → sdo t = some false)

/-- REFUSED_FORMAT (R158): a partial byte, an unassigned code or a frame of the wrong length leaves REFUSED FORMAT and changes nothing
else; a transaction with no bits leaves the held response empty. During a reset, and after one in which CSN stood low, nothing is judged
(R156; log 14). Bits that form a complete frame are no such row (log 13). -/
def Obligations.MalformedFrameIsRefused : Prop :=
  ∀ (bits : List Bool) (s : State), canTake s = true →
    (bits ≠ [] → (bits.length % 8 ≠ 0 ∨ ∀ bytes, bytesOfBits bits = some bytes → decodeFrame bytes = none) →
      exec (.refusedFormat bits) s = .next (answered (.refused .format) s)) ∧
    (bits = [] → exec (.refusedFormat bits) s = .next { s with cpe := { s.cpe with port := .closed, held := none } }) ∧
    (∀ bytes i, bytesOfBits bits = some bytes → decodeFrame bytes = some i →
      exec (.refusedFormat bits) s = .refused .completeFrame) ∧
    ∀ t : State, canTake t = false → (∀ bytes, bytesOfBits bits = some bytes → decodeFrame bytes = none) →
      exec (.refusedFormat bits) t = .next { t with cpe := { t.cpe with port := .closed } }

/-- NO OPERATION (R162): taken in every life-cycle state, it changes no state and its response is DONE with no data, which it leaves as
the held response; an empty transaction leaves the held response empty. -/
def Obligations.NoOperationChangesNothing : Prop :=
  ∀ s : State, canTake s = true →
    exec .noOperation s = .next { s with cpe := { s.cpe with port := .closed, held := some (.done []) } } ∧
    exec (.refusedFormat []) s = .next { s with cpe := { s.cpe with port := .closed, held := none } }

/-- READ STATE (R163, R178): a record of the station's state. READ VIEW (R164): the view as a set, the anchor or none, the invite cursor
and the join-pending flag. READ READINESS (R165, R178): REFUSED RANGE above 31, else the mark, the three sequences, the participant flag,
the palette state and the in-step membership, with absent fields zero and an absent participant flag FFh. None changes anything else. -/
def Obligations.ReadCommandsReportTheState : Prop :=
  (∀ s : State, canTake s = true → exec .readState s = .next (answered (.done (
    [byte s.startup.number.val, s.startup.life.code] ++
    (match s.startup.config with
     | none => [0xFF, 0xFF, 0xFF, 0xFF, 0xFF, 0xFF]
     | some c => [flagByte c.participant, c.policy.code, byte c.deadline, byte c.holdBudget, c.openStreams.setWidth 8,
         c.recovery.code]) ++
    [s.pos.state.code, faultCode s.pos.fault, (match s.lif.lastError with | none => 0 | some e => classesCode e)] ++
    bytesOfSeq s.agr.l ++ bytesOfSeq s.agr.r ++ bytesOfSeq s.agr.c ++ [s.agr.agreement.code] ++ bytesOfValue s.agr.inStep ++
    [flagByte s.agr.known, byte s.agr.wait, flagByte s.agr.deadlineReported] ++
    [paletteCode s.pal.state] ++ bytesOfSerial s.pal.e ++
    [byte s.pal.store.length, byte s.pal.outbound.length, stationByte s.pal.candidate, flagByte s.pal.outstanding,
     stationByte (s.pal.owed.map Owed.requester), flagByte s.pal.deferral] ++
    stations.flatMap (fun n => if inSet n s.mem.view then [byte (creditOf s.pal.credits n), byte (creditOf s.msg.credits n)]
      else [0xFF, 0xFF]) ++
    [byte s.msg.inbound.length, byte s.msg.priority.length, byte s.msg.bulk.length, flagByte s.msg.retry.isSome,
     byte s.att.requests.length, byte s.att.returns.length, byte s.cpe.events.length])) s)) ∧
  (∀ s : State, canTake s = true →
    exec .readView s = .next (answered (.done (bytesOfValue s.mem.view ++
      [match anchor s.mem.view with | some n => byte n.val | none => 0xFF, byte s.mem.cursor.val, flagByte s.mem.joinPending])) s)) ∧
  ∀ (number : Byte) (s : State), canTake s = true →
    (31 < number.toNat → exec (.readReadiness number) s = .next (answered (.refused .range) s)) ∧
    ∀ n : Station, n.val = number.toNat →
      let inStep : Byte := if s.agr.known then (if inSet n s.agr.inStep then 1 else 0) else 2
      let flag : Option Bool → Byte := fun p => match p with | none => 0xFF | some b => if b then 1 else 0
      (s.agr.entry n = none → exec (.readReadiness number) s =
        .next (answered (.done ([0] ++ List.replicate 15 0 ++ [0xFF, 0, 0])) s)) ∧
      (∀ p, s.agr.entry n = some ⟨p, none⟩ → exec (.readReadiness number) s =
        .next (answered (.done ([1] ++ List.replicate 15 0 ++ [flag p, 0, inStep])) s)) ∧
      (∀ p r, s.agr.entry n = some ⟨p, some r⟩ → exec (.readReadiness number) s =
        .next (answered (.done ([2] ++ bytesOfSeq r.l ++ bytesOfSeq r.r ++ bytesOfSeq r.c ++
          [flag p, paletteCode r.palette, inStep])) s))

/-- R167: an event joins the tail of a queue with room, its mark clear; raised into a full queue it is lost and marks the newest record.
TAKE EVENT (R168): the oldest record, as the 14 bytes of section 11.5 (the kind code, the presence byte, then the station, the sequence, the
tag, the reason code and the set of stations, each zero where it is absent), with the count left, and it is removed; REFUSED EMPTY on an
empty queue. ATTN_N is released exactly when the queue is then empty (R169). The kinds take the codes 01h to 16h and the reasons 01h to
19h, in the order of section 11.5. -/
def Obligations.EventsAreQueuedAndTaken : Prop :=
  (([.started, .joined, .dropped, .left, .memberAdded, .memberRemoved, .busFault, .halted, .presented, .lagging, .inStep,
      .deadlineMissed, .paletteDiverged, .paletteResynced, .paletteLate, .messageArrived, .messageSent, .messageDelivered,
      .messageFailed, .requestDone, .requestFailed, .attributeWritten] : List EventKind).map EventKind.code =
    (List.range 22).map (fun i => byte (i + 1))) ∧
  (([.power, .restart, .founded, .noAnswer, .driveHigh, .driveLow, .duplicateNumber, .serial, .full, .check, .ahead, .self,
      .broadcast, .corrected, .streamClosed, .payloadFailed, .queueFull, .noReply, .destinationLost, .left, .busy, .range,
      .readOnly, .timeout, .targetLost] : List Reason).map Reason.code = (List.range 25).map (fun i => byte (i + 1))) ∧
  (∀ (s : State) (e : EventRecord),
    (s.cpe.events.length < 16 →
      s.raise e = { s with cpe := { s.cpe with events := s.cpe.events ++ [{ e with lossFollows := false }] } }) ∧
    ∀ front newest, s.cpe.events = front ++ [newest] → 16 ≤ s.cpe.events.length →
      s.raise e = { s with cpe := { s.cpe with events := front ++ [{ newest with lossFollows := true }] } }) ∧
  ∀ s : State, canTake s = true →
    let record := fun (e : EventRecord) =>
      [e.kind.code,
       byte ((if e.station = none then 0 else 1) + (if e.sequence = none then 0 else 2) + (if e.tag = none then 0 else 4) +
         (if e.reason = none then 0 else 8) + (if e.stations = none then 0 else 16) + (if e.lossFollows = true then 128 else 0)),
       match e.station with
       | some n => byte n.val
       | none => 0] ++
      (match e.sequence with
       | some q => bytesOfSeq q
       | none => [0, 0, 0, 0, 0]) ++
      [match e.tag with
       | some tag => tag
       | none => 0,
       match e.reason with
       | some why => why.code
       | none => 0] ++
      match e.stations with
      | some set => bytesOfValue set
      | none => [0, 0, 0, 0]
    (s.cpe.events = [] → exec .takeEvent s = .next (answered (.refused .empty) s)) ∧
    ∀ e rest, s.cpe.events = e :: rest → ∃ t, exec .takeEvent s = .next t ∧
      t = { s with cpe := { port := .closed, held := some (.done (record e ++ [byte rest.length])), events := rest } } ∧
      attnN t = rest.isEmpty

/-! ### The commands of the life cycle and the POS (chapters 1 and 3) -/

/-- CONFIGURE (R3, R178): in UNCONFIGURED with every field in range the record is written whole and the state becomes STANDBY; a field out
of range is REFUSED RANGE; in any other state REFUSED STATE. -/
def Obligations.ConfigureWritesTheRecord : Prop :=
  ∀ (p a d h o r : Byte) (s : State), canTake s = true →
    let inRange := p.toNat ≤ 1 ∧ a.toNat ≤ 1 ∧ (1 ≤ d.toNat ∧ d.toNat ≤ 60) ∧ (h = 0 ∨ 2 ≤ h.toNat ∧ h.toNat ≤ 16) ∧
      o.toNat < 16 ∧ r.toNat ≤ 1
    (s.startup.life ≠ .unconfigured → exec (.configure p a d h o r) s = .next (answered (.refused .state) s)) ∧
    (s.startup.life = .unconfigured → ¬ inRange → exec (.configure p a d h o r) s = .next (answered (.refused .range) s)) ∧
    (s.startup.life = .unconfigured → inRange → exec (.configure p a d h o r) s = .next (answered (.done [])
      { s with startup := { s.startup with
          life := .standby
          config := some { participant := decide (p = 1), policy := if a = 1 then .dropLate else .hold, deadline := d.toNat
                           holdBudget := if h = 0 then 6 else h.toNat, openStreams := o.setWidth 4
                           recovery := if r = 1 then .acknowledged else .automatic } } }))

/-- GO (R5): from STANDBY to JOIN PENDING and LISTENING, the receiver on and the silence timer at zero; elsewhere REFUSED STATE. LEAVE
(R7): a MEMBER becomes LEAVING, and a pending COMMIT that has not been granted is discarded (R88); a pending station becomes STANDBY and
QUIET with its receiver off and its driver released (the line-busy indication stands, log 28); elsewhere REFUSED STATE. The guard's timer
`released` starts with GO (log 20). GO leaves the line-busy indication as it stands, so that the silence counts from the command where it is
lowered and from the first rearming where it was left raised (log 28). -/
def Obligations.GoAndLeaveTakeEffectByState : Prop :=
  (∀ s : State, canTake s = true →
    (s.startup.life ≠ .standby → exec .go s = .next (answered (.refused .state) s)) ∧
    (s.startup.life = .standby → exec .go s = .next (answered (.done [])
      { s with
        startup := { s.startup with life := .joinPending }
        mem := { s.mem with joinPending := true }
        lif := { s.lif with receiver := .draining, released := some 0 }
        pos := { s.pos with state := .listening, silence := 0 } }))) ∧
  ∀ s : State, canTake s = true →
    (s.startup.life = .member → exec .leave s = .next (answered (.done [])
      { s with
        startup := { s.startup with life := .leaving }
        agr := { s.agr with pendingCommit :=
          if s.lif.driver.tx.map Tx.cls = some .commit then s.agr.pendingCommit else none } })) ∧
    (s.startup.life = .joinPending → exec .leave s = .next (answered (.done [])
      { s with
        startup := { s.startup with life := .standby }
        mem := { s.mem with joinPending := false }
        lif := { s.lif with receiver := .off, driver := .released, released := none }
        pos := { Pos.reset with fault := s.pos.fault } })) ∧
    (s.startup.life ≠ .member → s.startup.life ≠ .joinPending → exec .leave s = .next (answered (.refused .state) s))

/-- RESTART (R12): refused with STATE in UNCONFIGURED; elsewhere every unit takes its values for a station reset, the configuration, the
station number, the bank, the stored attributes, the qualifier and the lookup outputs are kept, and the event queue holds STARTED
(RESTART) alone. In the bank a running application stops after the entry being written (R174), and so does the installation of a SNAPSHOT
part (the model's choice, log 9). -/
def Obligations.RestartResetsTheStation : Prop :=
  ∀ s : State, canTake s = true →
    (s.startup.life = .unconfigured → exec .restart s = .next (answered (.refused .state) s)) ∧
    (s.startup.life ≠ .unconfigured → exec .restart s = .next
      { s with
        startup := { s.startup with life := .standby }
        lif := Lif.reset, pos := Pos.reset, mem := { view := 0, cursor := s.startup.number, joinPending := false }, agr := Agr.reset
        pal := Pal.reset ((s.pal.bank.writeAll (s.pal.installing.take 1)).writeAll (match s.pal.applications with
          | [] => []
          | a :: _ => a.writes.take 1))
        att := { table := s.att.table, requests := [], returns := [], tagCounter := 0 }
        msg := Msg.reset
        cpe := { port := .closed, held := some (.done []), events := [⟨.started, none, none, none, some .restart, none, false⟩] }
        outputs := { s.outputs with present := none } })

/-- ACKNOWLEDGE FAULT (R54): it ends a bus hold and clears the fault record, or clears the record alone, or is refused with STATE. -/
def Obligations.AcknowledgeFaultEndsTheHold : Prop :=
  ∀ s : State, canTake s = true →
    (s.pos.state = .busHold → exec .acknowledgeFault s = .next (answered (.done [])
      { s with pos := { s.pos with state := .listening, silence := 0, hold := none, fault := none } })) ∧
    (s.pos.state ≠ .busHold → s.pos.fault ≠ none → exec .acknowledgeFault s = .next (answered (.done [])
      { s with pos := { s.pos with fault := none } })) ∧
    (s.pos.state ≠ .busHold → s.pos.fault = none → exec .acknowledgeFault s = .next (answered (.refused .state) s))

/-! ### The commands of the other units (chapters 5 to 8) -/

/-- READY (R76): judged in the order STATE, STALE, DONE; it acts on R alone. -/
def Obligations.ReadyRaisesR : Prop :=
  ∀ (n : Seq) (s : State), canTake s = true →
    (s.startup.life ≠ .member → s.startup.life ≠ .leaving → exec (.ready n) s = .next (answered (.refused .state) s)) ∧
    ((s.startup.life = .member ∨ s.startup.life = .leaving) →
      ((n ≤ s.agr.l ∨ n ≤ s.agr.r) → exec (.ready n) s = .next (answered (.refused .stale) s)) ∧
      (s.agr.l < n → s.agr.r < n → exec (.ready n) s = .next (answered (.done []) { s with agr := { s.agr with r := n } })))

/-- SUBMIT PALETTE (R104): judged in the order STATE, RANGE, FULL, QUEUED; the record joins the tail of the outbound palette queue and the
tag is the number of records the queue then holds. -/
def Obligations.SubmitPaletteQueuesARecord : Prop :=
  ∀ (e : Seq) (start : BitVec 16) (ws : List Value) (s : State), canTake s = true →
    let inRange := 1 ≤ ws.length ∧ ws.length ≤ 64 ∧ start.toNat + ws.length ≤ 512
    ((s.startup.life ≠ .member ∨ s.pal.state ≠ .normal) →
      exec (.submitPalette e start ws) s = .next (answered (.refused .state) s)) ∧
    (s.startup.life = .member → s.pal.state = .normal →
      (¬ inRange → exec (.submitPalette e start ws) s = .next (answered (.refused .range) s)) ∧
      (inRange → 4 ≤ s.pal.outbound.length → exec (.submitPalette e start ws) s = .next (answered (.refused .full) s)) ∧
      (inRange → s.pal.outbound.length < 4 → exec (.submitPalette e start ws) s = .next
        (answered (.queued (byte (s.pal.outbound.length + 1)))
          { s with pal := { s.pal with outbound :=
              s.pal.outbound ++ [{ effective := e, start := start, entries := ws.map (fun w => w.setWidth 30) }] } })))

/-- READ PALETTE (R103): RANGE for a count of 0 or above 32 or a run past 512, else the palette state, E, the two counts and the entries as
the running application leaves them (one that waits for it is not counted, log 22); nothing changes. The entries of a SNAPSHOT part heard
and not yet written are read as they were: the model follows R174, which writes them one every 20 ns, where R120 has them stand in the bank
from the moment the part is heard (log 9). -/
def Obligations.ReadPaletteReturnsTheRun : Prop :=
  ∀ (start : BitVec 16) (count : Byte) (s : State), canTake s = true →
    ((count = 0 ∨ 32 < count.toNat ∨ 512 < start.toNat + count.toNat) →
      exec (.readPalette start count) s = .next (answered (.refused .range) s)) ∧
    (1 ≤ count.toNat → count.toNat ≤ 32 → start.toNat + count.toNat ≤ 512 →
      exec (.readPalette start count) s = .next (answered (.done ([paletteCode s.pal.state] ++ bytesOfSerial s.pal.e ++
        [byte s.pal.store.length, byte s.pal.outbound.length] ++
        (List.range count.toNat).flatMap (fun i => wordOfColor ((match s.pal.applications with
          | [] => s.pal.bank
          | a :: _ => s.pal.bank.writeAll a.writes).read (start.toNat + i))))) s))

/-- SEND MESSAGE (R141, R178): judged in the order STATE, NOT MEMBER, RANGE, FULL, QUEUED; the record takes the counter's tag and joins the
tail of its class queue, and the counter advances. TAKE MESSAGE (R151): the oldest message with the number left, and it is removed;
REFUSED EMPTY on an empty queue. -/
def Obligations.MessagesAreQueuedAndTaken : Prop :=
  (∀ (dest stream ack cls : Byte) (payload : List Byte) (s : State), canTake s = true →
    let ask := exec (.sendMessage dest stream ack cls payload) s
    let known := dest = 0x3F ∨ dest.toNat < 32
    let sized := 1 ≤ payload.length ∧ (cls = 0 ∧ payload.length ≤ 16 ∨ cls = 1 ∧ payload.length ≤ 128)
    let record := fun (d : Dest) => ({ tag := s.msg.tagCounter, dest := d, stream := stream.setWidth 2
                                       ack := decide (ack ≠ 0) && decide (d ≠ .all), payload := payload, attempts := 0 } : OutMessage)
    (s.startup.life ≠ .member → ask = .next (answered (.refused .state) s)) ∧
    (s.startup.life = .member →
      (∀ n : Station, n.val = dest.toNat → (inSet n s.mem.view = false ∨ n = s.number) →
        ask = .next (answered (.refused .notMember) s)) ∧
      (¬ known → ask = .next (answered (.refused .range) s)) ∧
      ∀ d : Dest, (d = .all ∧ dest = 0x3F ∨ ∃ n : Station, d = .station n ∧ n.val = dest.toNat ∧ inSet n s.mem.view = true ∧
          n ≠ s.number) →
        (¬ (sized ∧ stream.toNat ≤ 3) → ask = .next (answered (.refused .range) s)) ∧
        (sized → stream.toNat ≤ 3 → cls = 0 → 4 ≤ s.msg.priority.length → ask = .next (answered (.refused .full) s)) ∧
        (sized → stream.toNat ≤ 3 → cls = 1 → 8 ≤ s.msg.bulk.length → ask = .next (answered (.refused .full) s)) ∧
        (sized → stream.toNat ≤ 3 → cls = 0 → s.msg.priority.length < 4 → ask = .next (answered (.queued s.msg.tagCounter)
          { s with msg := { s.msg with priority := s.msg.priority ++ [record d], tagCounter := s.msg.tagCounter + 1 } })) ∧
        (sized → stream.toNat ≤ 3 → cls = 1 → s.msg.bulk.length < 8 → ask = .next (answered (.queued s.msg.tagCounter)
          { s with msg := { s.msg with bulk := s.msg.bulk ++ [record d], tagCounter := s.msg.tagCounter + 1 } })))) ∧
  ∀ s : State, canTake s = true →
    (s.msg.inbound = [] → exec .takeMessage s = .next (answered (.refused .empty) s)) ∧
    ∀ m rest, s.msg.inbound = m :: rest → exec .takeMessage s = .next (answered
      (.done ([byte m.source.val, m.stream.setWidth 8, flagByte m.broadcast, byte m.payload.length] ++ m.payload ++ [byte rest.length]))
      { s with msg := { s.msg with inbound := rest } })

/-- READ ATTRIBUTE (R127): RANGE for a count of 0 or above 16 or a run past 64, else each record's value and last writer, those of indices
0 to 7 formed at that moment; nothing changes. -/
def Obligations.ReadAttributeReturnsTheRun : Prop :=
  ∀ (start count : Byte) (s : State), canTake s = true →
    ((count = 0 ∨ 16 < count.toNat ∨ 64 < start.toNat + count.toNat) →
      exec (.readAttribute start count) s = .next (answered (.refused .range) s)) ∧
    (1 ≤ count.toNat → count.toNat ≤ 16 → start.toNat + count.toNat ≤ 64 →
      exec (.readAttribute start count) s = .next (answered (.done ((List.range count.toNat).flatMap (fun i =>
        bytesOfValue (readAttr s (start.toNat + i)).value ++ [(readAttr s (start.toNat + i)).writer.code]))) s))

/-- R126, section 11.6: what the records 0 to 7 hold when they are read, their last writer PART. In the states right after a reset too: R129
gives the value of every record as 0 there, and the model follows R126 (log 33). -/
def Obligations.PartAttributesAreFormedWhenRead : Prop :=
  ∀ s : State, withinCapacity s = true → storeAgrees s = true →
    (∀ i, i < 8 → (readAttr s i).writer = .part) ∧
    ((readAttr s 0).value = BitVec.ofNat 8 s.number.val ++ s.startup.life.code ++ s.pos.state.code.setWidth 4 ++
      s.agr.agreement.code.setWidth 4 ++ paletteCode s.pal.state) ∧
    (readAttr s 1).value = s.mem.view ∧
    (readAttr s 2).value = s.agr.l.setWidth 32 ∧ (readAttr s 3).value = s.agr.r.setWidth 32 ∧
    (readAttr s 4).value = s.agr.c.setWidth 32 ∧
    (readAttr s 5).value = (0 : Byte) ++ s.agr.l.extractLsb' 32 8 ++ s.agr.r.extractLsb' 32 8 ++ s.agr.c.extractLsb' 32 8 ∧
    (readAttr s 6).value = s.pal.e ++ (0 : Byte) ++ byte s.pal.store.length ∧
    (readAttr s 7).value = (0 : Byte) ++ byte s.msg.inbound.length ++ byte s.msg.priority.length ++ byte s.msg.bulk.length

/-- WRITE ATTRIBUTE (R128): STATE in UNCONFIGURED, RANGE for an index below 8 or above 63, else the record takes the value and the writer
LOCAL; every other record stays, and so does everything else. -/
def Obligations.WriteAttributeWritesOneRecord : Prop :=
  ∀ (index : Byte) (value : Value) (s : State), canTake s = true →
    (s.startup.life = .unconfigured → exec (.writeAttribute index value) s = .next (answered (.refused .state) s)) ∧
    (s.startup.life ≠ .unconfigured →
      ((index.toNat < 8 ∨ 63 < index.toNat) → exec (.writeAttribute index value) s = .next (answered (.refused .range) s)) ∧
      (8 ≤ index.toNat → index.toNat ≤ 63 → ∃ t : State,
        exec (.writeAttribute index value) s = .next t ∧
        readAttr t index.toNat = ⟨value, .localPort⟩ ∧ (∀ i, i ≠ index.toNat → readAttr t i = readAttr s i) ∧
        t = { answered (.done []) s with att := { s.att with table := t.att.table } }))

/-- REMOTE READ and REMOTE WRITE (R130): judged in the order STATE, NOT MEMBER, RANGE, FULL, QUEUED; the entry's tag is the first from the
counter upward that no entry holds, and the counter moves past it. -/
def Obligations.RemoteCommandsMakeAnEntry : Prop :=
  ∀ (target : Byte) (c : Instr) (kind : RequestKind) (inRange : Prop) (s : State), canTake s = true →
    ((∃ start count, c = .remoteRead target start count ∧ kind = .read start count ∧
        (inRange ↔ 1 ≤ count.toNat ∧ count.toNat ≤ 16 ∧ start.toNat + count.toNat ≤ 64)) ∨
      (∃ index value, c = .remoteWrite target index value ∧ kind = .write index value ∧ (inRange ↔ index.toNat ≤ 63))) →
    (s.startup.life ≠ .member → exec c s = .next (answered (.refused .state) s)) ∧
    (s.startup.life = .member →
      (31 < target.toNat → exec c s = .next (answered (.refused .notMember) s)) ∧
      ∀ n : Station, n.val = target.toNat →
        ((inSet n s.mem.view = false ∨ n = s.number) → exec c s = .next (answered (.refused .notMember) s)) ∧
        (inSet n s.mem.view = true → n ≠ s.number →
          (¬ inRange → exec c s = .next (answered (.refused .range) s)) ∧
          (inRange → 4 ≤ s.att.requests.length → exec c s = .next (answered (.refused .full) s)) ∧
          (inRange → s.att.requests.length < 4 → ∃ (tag : Byte) (k : Nat),
            tag = s.att.tagCounter + byte k ∧ k ≤ 4 ∧ (∀ r ∈ s.att.requests, r.tag ≠ tag) ∧
            (∀ j, j < k → ∃ r ∈ s.att.requests, r.tag = s.att.tagCounter + byte j) ∧
            exec c s = .next (answered (.queued tag) { s with att := { s.att with
              requests := s.att.requests ++ [{ tag := tag, kind := kind, target := n, attempts := 0, state := .queued,
                                               corrected := false }]
              tagCounter := tag + 1 } }))))

/-- TAKE RESULT (R134, R178): RANGE where no entry holds the tag, STATE for one unfinished; a finished entry's fields are returned and it
leaves the table. The count byte of a WRITE is a free value (log 7), and nothing follows the flag of a WRITE that is DONE (log 32). -/
def Obligations.TakeResultReturnsAFinishedEntry : Prop :=
  ∀ (tag : Byte) (s : State), canTake s = true →
    ((∀ r ∈ s.att.requests, r.tag ≠ tag) → exec (.takeResult tag) s = .next (answered (.refused .range) s)) ∧
    ∀ r, s.att.find tag = some r →
      ((r.state = .queued ∨ ∃ n, r.state = .awaitingReturn n) →
        exec (.takeResult tag) s = .next (answered (.refused .state) s)) ∧
      (∀ tail : List Byte, (∃ vs, r.state = .done vs ∧ tail = [2, flagByte r.corrected] ++ vs.flatMap bytesOfValue) ∨
          (∃ why, r.state = .failed why ∧ tail = [3, flagByte r.corrected, why.code]) →
        ∃ (count : Byte) (n : Nat), exec (.takeResult tag) s = .next (answered
          (.done ((match r.kind with
            | .read start k => [0, byte r.target.val, start, k]
            | .write index _ => [1, byte r.target.val, index, count]) ++ [byte r.attempts] ++ tail))
          { s with att := { s.att with requests := s.att.requests.filter (fun q => q.tag ≠ tag) }, free := n }))

/-! ### The line and the possession (chapters 2 and 3) -/

/-- ACTIVITY and RECEIVER_REARM (R14 to R17, R19 to R21, R34, R42, R46): the departure is seen by an ARMED receiver alone. A rearm with no
packet judged lowers the line-busy indication and leaves the receiver ARMED; a readable packet judged in error, which is heard at the
rearm, then does what its own row does with the receiver ARMED. DRAINING is, in the model, a receiver that follows no frame (a frame judged
in error stands in DELIMITER until its rearm, log 12), so a rearm in DRAINING hears nothing (log 2). LIF_BEGIN_DRIVING (R28): the packet
handed to the LIF is driven; a frame in progress is ended unheard, and an ARMED receiver sees the departure of the station's own packet as
activity (log 11; log 26). A row that cannot happen in the present state changes nothing (log 2). The `released` counter serves the guard
alone (log 20). -/
def Obligations.ActivityRearmAndDriving : Prop :=
  (∀ s : State,
    (s.inReset = false → s.lif.receiver = .armed → exec .activity s = .next
      { s with
        lif := { s.lif with receiver := .delimiter, lineBusy := true, released := none }
        pos := if s.pos.state = .handingOver ∧ s.pos.turnaround ≠ none
          then { s.pos with state := .listening, silence := 0, batch := Batch.idle, slot := none, handover := none,
                            turnaround := none }
          else { s.pos with silence := 0, slot := s.pos.slot.map (fun sl => { sl with activity := true }) } }) ∧
    (s.lif.receiver ≠ .armed → exec .activity s = .next s) ∧
    (canRearm s = true → ∀ j, (j = none ∨ s.lif.receiver = .draining) → exec (.receiverRearm j) s = .next
      { s with lif := { s.lif with receiver := .armed, lineBusy := false,
                                   released := some (max Config.rearmInterval (s.lif.released.getD 0)) } }) ∧
    (canHear s = true → ∀ k : Packet, (flawOf k = some .endError ∨ flawOf k = some .lengthInvalid) →
      exec (.receiverRearm (some (.readable k))) s = exec k.row
        { s with lif := { s.lif with receiver := .armed, lineBusy := false,
                                     released := some (max Config.rearmInterval (s.lif.released.getD 0)) } }) ∧
    (canRearm s = false → ∀ j, exec (.receiverRearm j) s = .next s)) ∧
  ∀ s : State, s.inReset = false →
    (∀ tx, s.lif.driver = .waiting tx → s.pos.turnaround = none → exec .lifBeginDriving s = .next
      { s with
        lif := { s.lif with
          driver := .driving tx
          released := none
          lineBusy := if s.lif.receiver = .armed then true else s.lif.lineBusy
          receiver := if s.lif.receiver = .off then .off else .delimiter }
        pos := if s.lif.receiver = .armed
          then { s.pos with silence := 0, slot := s.pos.slot.map (fun sl => { sl with activity := true }) } else s.pos }) ∧
    ((∀ tx, s.lif.driver ≠ .waiting tx) → exec .lifBeginDriving s = .next s)

/-- UNREADABLE_PACKET_HEARD, and RECEIVER_REARM with an unreadable packet judged, outside a reply slot and a turnaround window (R25, R26,
R34, R121): every credit record but the station's own is 0, an installation in progress has failed, the writes of the part last heard going
on (log 9), and the last receive error record holds the classes. Outside the view, in JOIN PENDING and in HALTED (R10), the receiver, the
error record and the silence timer alone change. -/
def Obligations.UnreadablePacketZeroesTheCredits : Prop :=
  ∀ (u : Unreadable) (s : State), canHear s = true → s.pos.slot = none → s.pos.turnaround = none →
    ∀ (c : Instr) (lif : Lif),
      (c = .unreadablePacketHeard u ∧
          lif = { s.lif with receiver := if s.lif.receiver = .armed then .armed else .draining, lastError := some (.unreadable u) } ∨
        c = .receiverRearm (some (.unreadable u)) ∧
          lif = { s.lif with receiver := .armed, lineBusy := false, lastError := some (.unreadable u),
                             released := some (max Config.rearmInterval (s.lif.released.getD 0)) }) →
      (s.inView = false → exec c s = .next { s with lif := lif, pos := { s.pos with silence := 0 } }) ∧
      (s.inView = true → ∃ t, exec c s = .next t ∧
        t = { s with
          lif := lif
          pos := { s.pos with silence := 0 }
          pal := { (if s.pal.state = .receiving then { s.pal with state := .resync, store := [], outstanding := false,
                                                                  wait := none, install := none } else s.pal)
                   with credits := t.pal.credits }
          msg := { s.msg with credits := t.msg.credits } } ∧
        (∀ n : Station, n ≠ s.number → creditOf t.pal.credits n = 0 ∧ creditOf t.msg.credits n = 0) ∧
        creditOf t.pal.credits s.number = creditOf s.pal.credits s.number ∧
        creditOf t.msg.credits s.number = creditOf s.msg.credits s.number)

/-- PACKET_SENT, its first part (R29, R34, R41, R121): the line is released, the silence timer is zero, a packet of the scheduler's classes
2 and 4 to 11 raises the hold-budget count, and an awaited answer that the station's own packet breaks has failed. Then each class: after a
reply LISTENING (R44); after HANDOVER HANDING OVER with the turnaround window running (R45); after CLAIM (R38), COMMIT (R89), a packet of
an answer (R110, R119), READ RETURN (R136), PALETTE (R105, R108), a LEAVE that leaves members behind (R71) and a MESSAGE that seeks no
reply (R142, R145) the scheduler's next choice, whose own event, PALETTE RESYNCED with SELF, comes after the packet's (log 37). Where an
answer's last packet is followed by an application (R110), the part last heard is written whole before it (log 9). At a station that does
not drive the row reports nothing and changes nothing (log 2). -/
def Obligations.PacketSentMovesThePossessionOn : Prop :=
  (∀ s : State, s.lif.driver.driven = none → exec .packetSent s = .next s) ∧
  ∀ (s : State) (tx : Tx), s.inReset = false → s.lif.driver = .driving tx →
    let u := sentBy tx s
    let raised := fun (es : List EventRecord) => { s.cpe with events := es.foldl pushEvent s.cpe.events }
    (u = { s with
      lif := { s.lif with driver := .released, released := some 0, lineBusy := true,
                          receiver := if s.lif.receiver = .off then .off else .draining }
      pos := { s.pos with
        silence := 0
        batch := { s.pos.batch with
          count := if tx.cls ∈ [.commit, .readReturn, .snapshotRequest, .retry, .priority, .palette, .request, .bulk, .invite]
            then s.pos.batch.count + 1 else s.pos.batch.count } }
      pal := if s.inView = true then s.pal.breakAnswer s.number tx.packet else s.pal }) ∧
    (tx.cls = .reply → exec .packetSent s = .next { u with pos := { u.pos with state := .listening } }) ∧
    (tx.cls = .handover → exec .packetSent s = .next
      { u with pos := { u.pos with state := .handingOver, turnaround := some 0, batch := Batch.idle, slot := none } }) ∧
    (tx.cls = .claim → exec .packetSent s = .next (choose u)) ∧
    (∀ h b, tx.cls = .commit → tx.packet = .commit h (.good b) → s.inView = true → exec .packetSent s = .next (choose
      { u with agr := { (s.agr.hearCommit s.number s.mem.view h.source b).1 with pendingCommit := none }
               cpe := raised (s.agr.hearCommit s.number s.mem.view h.source b).2 })) ∧
    (∀ a, tx.cls = .answer → u.pal.answer = some a →
      (a.next + 1 < 8 + a.n → exec .packetSent s = .next (choose
        { u with pal := { u.pal with answer := some { a with next := a.next + 1 } } })) ∧
      (8 + a.n ≤ a.next + 1 → exec .packetSent s = .next (choose { u with pal := answerEnded u.pal s.agr.l }))) ∧
    (tx.cls = .readReturn → exec .packetSent s = .next (choose { u with att := { s.att with returns := s.att.returns.tail } })) ∧
    (∀ h p, tx.cls = .palette → tx.packet = .palette h p → s.inView = true →
      let heard := { u.pal with outbound := s.pal.outbound.tail }.hearPalette h.source p
      exec .packetSent s = .next (choose { u with pal := heard.1, cpe := raised heard.2 })) ∧
    (tx.cls = .leave → s.mem.view &&& ~~~ (1#32 <<< s.number.val) ≠ 0 → exec .packetSent s = .next (choose
      { u with pos := { u.pos with batch := { u.pos.batch with leaveSent := true } } })) ∧
    (∀ h ack st p m rest, tx.packet = .message h ack st p → (ack = false ∨ h.dest = .all) → m.ack = false →
      let sent := fun (g : Msg) => choose { u with
        msg := { g with credits := lowerFor s.msg.credits h.source h.dest }
        cpe := raised [{ kind := .messageSent, tag := some m.tag
                         station := match m.dest with
                           | .station n => some n
                           | .all => none }] }
      (tx.cls = .priority → s.msg.priority = m :: rest → exec .packetSent s = .next (sent { s.msg with priority := rest })) ∧
      (tx.cls = .bulk → s.msg.bulk = m :: rest → exec .packetSent s = .next (sent { s.msg with bulk := rest })))

/-- PACKET_SENT for the HANDOVER packet that completes a leave, or a sole member's LEAVE packet (R8, R71, R73): LEFT, then the failures of
the requests and messages that stand, STANDBY and QUIET, and every unit outside the view (R122, R123); the line-busy indication stands (log
28). A running application goes on (R174), and with it the writes of a SNAPSHOT part (log 9) and a waiting application (log 22). -/
def Obligations.LeavesHandoverSentEndsTheMembership : Prop :=
  ∀ (s : State) (tx : Tx), s.inReset = false → s.lif.driver = .driving tx →
    (tx.cls = .leaveHandover ∨ tx.cls = .leave ∧ s.mem.view &&& ~~~ (1#32 <<< s.number.val) = 0) →
    exec .packetSent s = .next { s with
      startup := { s.startup with life := .standby }
      lif := { s.lif with receiver := .off, driver := .released, released := none, lineBusy := true }
      pos := { Pos.reset with fault := s.pos.fault }
      mem := { view := 0, cursor := s.mem.cursor, joinPending := false }
      agr := (unitsLeft s).1, pal := (unitsLeft s).2.1, att := (unitsLeft s).2.2.1, msg := (unitsLeft s).2.2.2
      cpe := { s.cpe with events := (({ kind := .left } : EventRecord) :: leaveEvents s).foldl pushEvent s.cpe.events } }

/-- PACKET_SENT for a packet that seeks a reply (R42, R65, R114, R131, R144 to R146): the station enters AWAITING REPLY with the reply slot
open for the addressed station and the echoed tag, and the sending unit notes the packet. A message from a class queue waits in `held`, the
retry record where it stands (log 27). -/
def Obligations.SlotPacketsOpenASlot : Prop :=
  ∀ (s : State) (tx : Tx) (d : Station), s.inReset = false → s.lif.driver = .driving tx → tx.packet.head.dest = .station d →
    let u := sentBy tx s
    let tag := tx.packet.head.tag
    let opened := fun (p : Pos) (echoed : Byte) (owner : SlotOwner) => { p with
      state := .awaitingReply
      slot := some { target := d, tag := echoed, owner := owner, activity := false, elapsed := 0 } }
    (tx.cls = .invite → exec .packetSent s = .next
      { u with mem := { u.mem with cursor := d }
               pos := opened { u.pos with batch := { u.pos.batch with inviteSent := true } } 0 .invite }) ∧
    (tx.cls = .snapshotRequest → exec .packetSent s = .next
      { u with pal := { u.pal with candidate := some d, requestTag := tag }
               pos := opened { u.pos with batch := { u.pos.batch with snapshotAsked := true } } tag .snapshotRequest }) ∧
    (tx.cls = .request → exec .packetSent s = .next
      { u with att := { u.att with requests := u.att.requests.map (fun r =>
                 if r.tag = tag then { r with attempts := r.attempts + 1 } else r) }
               pos := opened { u.pos with batch := { u.pos.batch with requestsSent := u.pos.batch.requestsSent ++ [tag] } } tag
                 (.request tag) }) ∧
    (tx.cls = .retry → exec .packetSent s = .next
      { u with msg := { u.msg with retry := u.msg.retry.map (fun m => { m with attempts := m.attempts + 1 })
                                   credits := lowerFor u.msg.credits tx.packet.head.source (.station d) }
               pos := opened u.pos tag .message }) ∧
    (∀ h st p m rest, tx.packet = .message h true st p → m.ack = true →
      (tx.cls = .priority → s.msg.priority = m :: rest → exec .packetSent s = .next
        { u with msg := { u.msg with priority := rest, held := some { m with attempts := m.attempts + 1 }
                                     credits := lowerFor u.msg.credits h.source (.station d) }
                 pos := opened u.pos tag .message }) ∧
      (tx.cls = .bulk → s.msg.bulk = m :: rest → exec .packetSent s = .next
        { u with msg := { u.msg with bulk := rest, held := some { m with attempts := m.attempts + 1 }
                                     credits := lowerFor u.msg.credits h.source (.station d) }
                 pos := opened u.pos tag .message }))

/-- R85 to R88: the set P of the commit decision is the in-step participants of the view that are heard. No decision over an unknown set
or with no member of P beyond C; with all of P beyond C the least of them is committed with P; with some late, in DROP LATE mode and
with the deadline reached, the least of those beyond C with them alone. The decision is taken when a MEMBER's own STATUS packet is
sent, after the station has taken that packet as every station does (R80 to R84, R95, R106, R111, R142), its own catch-up included, by
which a LAGGING station is IN STEP again, and becomes the pending COMMIT; an answer owed to a station outside the view is dropped then
(R118). Over a divergence the writes of a part last heard and a waiting application go on (log 9, log 22). The order of the two units'
events is free (log 5); that of the choice which follows comes after them (log 37). -/
def Obligations.StatusSentDecidesTheCommit : Prop :=
  (∀ (a : Agr) (c : ConfigRecord) (view : StationSet),
    let p := fun (n : Station) (r : Seq) => inSet n view = true ∧ inSet n a.inStep = true ∧
      ∃ rep : Report, a.entry n = some { participant := some true, report := some rep } ∧ rep.r = r
    let least := fun (q : Station → Seq → Prop) (d : Option CommitBody) => ∃ b, d = some b ∧
      (∀ n, inSet n b.inStep = true ↔ ∃ r, q n r) ∧ (∃ n, q n b.n) ∧ ∀ n r, q n r → b.n ≤ r
    ((a.known = false ∨ ∀ n r, p n r → r ≤ a.c) → a.decision c view = none) ∧
    (a.known = true → (∃ n r, p n r) → (∀ n r, p n r → a.c < r) → least p (a.decision c view)) ∧
    (a.known = true → (∃ n r, p n r ∧ a.c < r) → (∃ n r, p n r ∧ r ≤ a.c) →
      (c.policy = .dropLate ∧ c.deadline ≤ a.wait → least (fun n r => p n r ∧ a.c < r) (a.decision c view)) ∧
      (¬ (c.policy = .dropLate ∧ c.deadline ≤ a.wait) → a.decision c view = none))) ∧
  ∀ (s : State) (tx : Tx) (h : Head) (b : StatusBody) (c : ConfigRecord), s.inReset = false → s.lif.driver = .driving tx →
    tx.cls = .status → tx.packet = .status h (.good b) → s.startup.config = some c → s.inView = true →
    inSet h.source s.mem.view = true →
    let u := sentBy tx s
    let pal := palTakesStatus h.source b u.pal
    ∃ (v : State) (agr : Agr) (agreed es : List EventRecord), exec .packetSent s = .next (choose v) ∧
      TakesStatus s.number s.mem.view h.source b s.agr agr agreed ∧
      v = { u with
        agr := { agr with pendingCommit := if s.startup.life = .member then agr.decision c s.mem.view else none }
        pal := { pal.1 with owed := v.pal.owed }
        msg := { s.msg with
          credits := s.msg.credits.map (fun e => (e.1, if e.1 = h.source.val then min 8 b.messageCredit.toNat else e.2)) }
        cpe := { s.cpe with events := es.foldl pushEvent s.cpe.events }
        free := v.free } ∧
      IsMerge agreed pal.2 es ∧
      (pal.1.answer = none → ∀ o, pal.1.owed = some o → v.pal.owed = if inSet o.requester s.mem.view then some o else none) ∧
      (pal.1.answer ≠ none ∨ pal.1.owed = none → v.pal.owed = pal.1.owed)

/-- The scheduler's choice (R38 to R41, R136). In a possession begun in LEAVING: the LEAVE packet, then a HANDOVER packet with the view
without the station (R71). In one begun as a MEMBER: the STATUS packet first, with the state as it stands (R78), or, where LEAVE was taken
before it, the HANDOVER packet (log 10); then, after self-authority where its conditions hold (R116; log 21), whose event joins behind
those already raised (log 37), the rest of an answer begun (R118), the HANDOVER packet once the hold budget is used or the station is
LEAVING, and otherwise the first class of 2 to 12 that offers a packet. Stale heads of the pending-return queue are dropped first. Class 5
offers by R114's conditions alone, so also in the possession in which a request has ended, where R115 speaks of the next possession (log
36). -/
def Obligations.SchedulerGrantsTheFirstClass : Prop :=
  ∀ (s : State) (c : ConfigRecord), s.startup.config = some c → s.inView = true → inSet s.number s.mem.view = true →
    answerAgrees s = true →
    let t := choose s
    let head : Head := { source := s.number, dest := .all, tag := 0, corrected := false }
    let att := { s.att with returns := s.att.returns.dropWhile (fun r => !inSet r.requester s.mem.view) }
    let waiting := fun (cls : TxClass) (k : Packet) => { s.lif with driver := .waiting ⟨cls, k⟩ }
    let others := s.mem.view &&& ~~~ (1#32 <<< s.number.val)
    let raised := fun (e : EventRecord) => { s.cpe with events := pushEvent s.cpe.events e }
    (s.pos.batch.leaving = true →
      (s.pos.batch.leaveSent = false → t = { s with att := att, lif := waiting .leave (.leave head none) }) ∧
      (s.pos.batch.leaveSent = true → ∀ next, IsSuccessor s.number others next → t = { s with
        att := att
        lif := waiting .leaveHandover (.handover { head with dest := .station next } .first others none) })) ∧
    (s.pos.batch.leaving = false → s.pos.batch.statusGranted = false → s.startup.life = .member → t = { s with
      att := att
      lif := waiting .status (.status head (.good (reportOf c s)))
      pos := { s.pos with batch := { s.pos.batch with statusGranted := true } } }) ∧
    (s.pos.batch.leaving = false → s.pos.batch.statusGranted = false → s.startup.life = .leaving →
      ∃ next, IsSuccessor s.number s.mem.view next ∧ t = { s with
        att := att
        lif := waiting .handover (.handover { head with dest := .station next } .first s.mem.view none)
        pos := { s.pos with handover := some { attempt := .first, successor := next, view := s.mem.view } } }) ∧
    (s.pos.batch.leaving = false → s.pos.batch.statusGranted = true →
      let heard := fun (n : Station) (normal : Bool) => ∃ q rep, s.agr.entry n = some ⟨q, some rep⟩ ∧ (rep.palette == .normal) = normal
      let alone := s.startup.life = .member ∧ s.pal.state = .resync ∧ (∀ n, ¬ MayBeAsked s n) ∧
        (∀ n, inSet n s.mem.view = true → ∃ b, heard n b) ∧ heard s.number false ∧
        ∀ n, n < s.number → inSet n s.mem.view = true → heard n true
      let room : Dest → Prop := fun d => match d with
        | .station n => 1 ≤ creditOf s.msg.credits n
        | .all => ∀ n, n ≠ s.number → inSet n s.mem.view = true → 1 ≤ creditOf s.msg.credits n
      ∃ tx, t = { s with
          lif := { s.lif with driver := .waiting tx }
          pos := { s.pos with handover := t.pos.handover }
          att := att
          pal := t.pal, cpe := t.cpe } ∧
        (alone → t.cpe = raised { kind := .paletteResynced, station := some s.number, sequence := some s.agr.l, reason := some .self } ∧
          t.pal = { s.pal with state := .normal, store := [], candidate := none, outstanding := false, wait := none, install := none }) ∧
        (¬ alone → t.cpe = s.cpe ∧ t.pal = { s.pal with answer := t.pal.answer }) ∧
        (tx.cls ≠ .handover → t.pos.handover = s.pos.handover) ∧ (tx.cls ≠ .answer → t.pal.answer = s.pal.answer) ∧
        FirstOf [
          (s.pal.answer ≠ none, .answer),
          (s.startup.life = .leaving ∨ c.holdBudget ≤ s.pos.batch.count, .handover),
          (s.agr.pendingCommit ≠ none, .commit),
          (∃ o, s.pal.owed = some o ∧ inSet o.requester s.mem.view = true, .answer),
          (att.returns ≠ [], .readReturn),
          (t.pal.state = .resync ∧ t.pal.outstanding = false ∧ s.pos.batch.snapshotAsked = false ∧ ∃ n, MayBeAsked s n,
            .snapshotRequest),
          (∃ m, s.msg.retry = some m ∧ room m.dest, .retry),
          (s.msg.retry = none ∧ ∃ m rest, s.msg.priority = m :: rest ∧ room m.dest, .priority),
          (s.pal.outbound ≠ [] ∧ ∀ n, inSet n s.mem.view = true → 1 ≤ creditOf s.pal.credits n, .palette),
          (∃ r ∈ s.att.requests, r.state = .queued ∧ r.tag ∉ s.pos.batch.requestsSent, .request),
          (s.msg.retry = none ∧ ∃ m rest, s.msg.bulk = m :: rest ∧ room m.dest, .bulk),
          ((∀ n, inSet n s.mem.view = true → s.number ≤ n) ∧ s.pos.batch.inviteSent = false ∧ ∃ n, inSet n s.mem.view = false,
            .invite),
          (True, .handover)] tx.cls)

/-- What each packet granted after the STATUS packet carries (R45, R65, R88, R105, R113, R114, R118, R131, R136, R144, R146). The bank in an
answer is as the running application leaves it (log 22), with the part last heard written whole (log 9). -/
def Obligations.GrantedPacketsCarryTheirRecords : Prop :=
  ∀ s : State, s.inView = true → inSet s.number s.mem.view = true → answerAgrees s = true → s.pos.batch.leaving = false →
    s.pos.batch.statusGranted = true →
    let t := choose s
    let head := fun (d : Dest) (tag : Byte) => ({ source := s.number, dest := d, tag := tag, corrected := false } : Head)
    let message := fun (m : OutMessage) => Packet.message (head m.dest m.tag) m.ack m.stream (.good m.payload)
    ∃ tx, t.lif.driver = .waiting tx ∧
      (tx.cls = .commit → ∃ b, s.agr.pendingCommit = some b ∧ tx.packet = .commit (head .all 0) (.good b)) ∧
      (tx.cls = .answer → ∃ o a, t.pal.owed = some o ∧ t.pal.answer = some a ∧
        (s.pal.answer = none → a = { s := s.agr.l, e0 := s.pal.e, n := s.pal.store.length, next := 0 }) ∧
        (s.pal.answer ≠ none → s.pal.answer = some a) ∧
        let bank := (s.pal.bank.writeAll s.pal.installing).writeAll (match s.pal.applications with
          | [] => []
          | run :: _ => run.writes)
        (a.next < 8 → tx.packet = .snapshot (head (.station o.requester) o.tag) (byte a.next) (.good
          { lead := if a.next = 0 then some { s := a.s, e0 := a.e0, n := byte a.n } else none
            entries := (List.range 64).map (fun i => bank.read (64 * a.next + i)) })) ∧
        (8 ≤ a.next → ∃ r, s.pal.store[a.next - 8]? = some r ∧
          tx.packet = .replay (head (.station o.requester) o.tag) (.good r))) ∧
      (tx.cls = .readReturn → ∃ r rest, t.att.returns = r :: rest ∧ tx.packet =
        .readReturn (head (.station r.requester) r.tag) r.start r.count
          (.good ((List.range r.count.toNat).map (fun i => (readAttr t (r.start.toNat + i)).value)))) ∧
      (tx.cls = .snapshotRequest → ∃ n, MayBeAsked s n ∧ tx.packet =
          .snapshotRequest (head (.station n) (s.pal.requestTag + 1)) none ∧
        (s.pal.candidate = none → ∀ m, MayBeAsked s m → n ≤ m) ∧
        ∀ asked, s.pal.candidate = some asked → ∀ m, MayBeAsked s m → n - (asked + 1) ≤ m - (asked + 1)) ∧
      (tx.cls = .retry → ∃ m, s.msg.retry = some m ∧ tx.packet = message m) ∧
      (tx.cls = .priority → ∃ m rest, s.msg.priority = m :: rest ∧ tx.packet = message m) ∧
      (tx.cls = .bulk → ∃ m rest, s.msg.bulk = m :: rest ∧ tx.packet = message m) ∧
      (tx.cls = .palette → ∃ r rest, s.pal.outbound = r :: rest ∧ tx.packet = .palette (head .all 0)
        (.good { serial := s.pal.e, effective := r.effective, start := r.start, entries := r.entries })) ∧
      (tx.cls = .request → ∃ before r after, s.att.requests = before ++ r :: after ∧
        (∀ q ∈ before, ¬ (q.state = .queued ∧ q.tag ∉ s.pos.batch.requestsSent)) ∧
        r.state = .queued ∧ r.tag ∉ s.pos.batch.requestsSent ∧ tx.packet = match r.kind with
          | .read start count => .read (head (.station r.target) r.tag) start count none
          | .write index value => .write (head (.station r.target) r.tag) index value none) ∧
      (tx.cls = .invite → ∃ n, inSet n s.mem.view = false ∧ tx.packet = .invite (head (.station n) 0) none ∧
        ∀ m, inSet m s.mem.view = false → n - (s.mem.cursor + 1) ≤ m - (s.mem.cursor + 1)) ∧
      (tx.cls = .handover → ∃ next, IsSuccessor s.number s.mem.view next ∧
        tx.packet = .handover (head (.station next) 0) .first s.mem.view none ∧
        t.pos.handover = some { attempt := .first, successor := next, view := s.mem.view })

/-- The comparator (R30) finds contention at the first half-cell in which the level sensed (RELEASED past the end of the list, log 12)
differs from the level driven, DRIVE-HIGH or DRIVE-LOW by the level driven, and none in a packet sensed as it was driven. CONTENTION (R30,
R50, R51): the driver is released, the station enters BUS HOLD with the fault recorded and the hold timer running in AUTOMATIC mode only,
its possession, a pending COMMIT and an answer being sent end (R110, R119), and BUS FAULT is raised. Where an answer is cut off the part
last heard is written whole before the application that follows (log 9). Every other unit stays; at a station that does not drive the row
changes nothing (log 2). -/
def Obligations.ContentionEntersBusHold : Prop :=
  (∀ (driven sensed : List Level) (i : Nat) (d : Level), driven[i]? = some d → d ≠ (sensed[i]?).getD .released →
    (∀ j, j < i → driven[j]? = some ((sensed[j]?).getD .released)) →
    (d = .high → compareLevels driven sensed = some .driveHigh) ∧ (d = .low → compareLevels driven sensed = some .driveLow)) ∧
  (∀ k : Packet, k.contention k.cells = none ∧ drivingRows k k.cells = [.lifBeginDriving, .packetSent]) ∧
  (∀ (kind : DriveFault) (s : State), s.lif.driver.driven = none → exec (.contention kind) s = .next s) ∧
  ∀ (kind : DriveFault) (s : State) (tx : Tx) (c : ConfigRecord), s.inReset = false → s.lif.driver = .driving tx →
    s.startup.config = some c →
      exec (.contention kind) s = .next { s with
        lif := { s.lif with driver := .released, released := some 0,
                            receiver := if s.lif.receiver = .off then .off else .draining }
        pos := { state := .busHold, silence := 0, batch := Batch.idle, slot := none, handover := none, turnaround := none
                 hold := if c.recovery = .automatic then some 0 else none, fault := some kind }
        agr := { s.agr with pendingCommit := none }
        pal := match s.pal.answer with
          | none => s.pal
          | some _ => answerEnded s.pal s.agr.l
        cpe := { s.cpe with events := pushEvent s.cpe.events ({ kind := .busFault, reason := some (match kind with
          | .driveHigh => .driveHigh
          | .driveLow => .driveLow) } : EventRecord) } }

/-! ### Packets heard (chapters 1 to 8) -/

/-- What hearing a readable packet changes before the units act on it (R16, R17, R26, R34, R121): one heard at its end delimiter leaves the
receiver in DRAINING, one judged in error leaves an ARMED receiver, which has just rearmed, ARMED. The same for CLAIM, LEAVE, JOIN and ACK
packets outside a reply slot, which change no more (R35, R44, R67, R72). In HALTED a packet of any kind and source changes no more either:
the last receive error record is still replaced, and no unit acts (R10, R24, R26; an unreadable one is O25's). While the turnaround window
runs any packet is heard as in LISTENING, the possession given up (R46). A station whose receiver is off, or that drives, hears nothing
(R16, R28); nor does a receiver in DRAINING, which in the model follows no frame: one judged in error stands in DELIMITER until its rearm
(log 12; log 2). Where an installation fails the writes of the part last heard go on (log 9). -/
def Obligations.HearingComesBeforeTheUnits : Prop :=
  (∀ (k : Packet) (s : State),
    let u := heardBy k s
    let ended := { s.pal with outstanding := false, wait := none, install := none, state := .resync
                              store := if s.pal.state = .receiving then [] else s.pal.store }
    let error := if k.head.corrected = false ∧ flawOf k = none then s.lif.lastError else some (.readable k.head.corrected (flawOf k))
    u = { s with lif := u.lif, pos := { s.pos with silence := 0 }, pal := u.pal } ∧
    u.lif = (if flawOf k = none ∨ flawOf k = some .payloadFailed
      then { s.lif with receiver := .draining, lineBusy := true, released := some 0, lastError := error }
      else { s.lif with receiver := if s.lif.receiver = .armed then .armed else .draining, lastError := error }) ∧
    u.pal = (if s.inView = false then s.pal else match s.pal.state with
      | .normal => s.pal
      | .receiving => if s.pal.isNext s.number k = true then s.pal else ended
      | .resync => if s.pal.outOfTurn s.number k = true then ended else s.pal)) ∧
  (∀ (h : Head) (f : Option Flaw) (s : State), takesPacket h s = true →
    exec (.claimHeard h f) s = .next (heardBy (.claim h f) s) ∧
    exec (.leaveHeard h f) s = .next (heardBy (.leave h f) s) ∧
    (∀ p, exec (.joinHeard h p f) s = .next (heardBy (.join h p f) s)) ∧
    (∀ r c, exec (.ackHeard h r c f) s = .next (heardBy (.ack h r c f) s))) ∧
  (∀ (k : Packet) (s : State), canHear s = true → s.startup.life = .halted → s.pos.turnaround = none →
    exec k.row s = .next (heardBy k s)) ∧
  ∀ (k : Packet) (e : Unreadable) (s : State),
    let listening := { s with pos := { s.pos with
      state := .listening, silence := 0, batch := Batch.idle, slot := none, handover := none, turnaround := none } }
    (canHear s = true → s.pos.state = .handingOver → s.pos.turnaround ≠ none →
      exec k.row s = exec k.row listening ∧ exec (.unreadablePacketHeard e) s = exec (.unreadablePacketHeard e) listening) ∧
    ((s.lif.receiver = .off ∨ s.lif.receiver = .draining ∨ s.lif.driver.driven ≠ none) →
      exec k.row s = .next s ∧ exec (.unreadablePacketHeard e) s = .next s)

/-- R10, R56, R73: a readable packet of any kind that carries the station's own number as its source halts the station: HALTED, QUIET and,
for a station in the view, out of the view, with HALTED raised before the events of the units that leave: the unfinished requests FAILED
with LEFT (R133), then the messages flushed (R153). The PAL takes its leave-view values (R122, R123): a running application goes on (R174),
and with it the writes of a SNAPSHOT part (log 9) and a waiting application (log 22). -/
def Obligations.OwnNumberHeardHalts : Prop :=
  ∀ (k : Packet) (s : State), canHear s = true → s.startup.life ≠ .halted → k.head.source = s.number → ∃ t,
    exec k.row s = .next t ∧
    t = { s with
      startup := { s.startup with life := .halted }
      lif := { (heardBy k s).lif with driver := match s.lif.driver with
        | .waiting _ => .released
        | d => d }
      pos := { Pos.reset with fault := s.pos.fault }
      mem := { s.mem with view := if s.inView = true then 0 else s.mem.view, joinPending := false }
      agr := if s.inView = true then (unitsLeft s).1 else s.agr
      pal := if s.inView = true then (unitsLeft s).2.1 else s.pal
      att := if s.inView = true then (unitsLeft s).2.2.1 else s.att
      msg := if s.inView = true then (unitsLeft s).2.2.2 else s.msg
      cpe := { s.cpe with events := (({ kind := .halted, reason := some .duplicateNumber } : EventRecord) ::
        (if s.inView = true then leaveEvents s else [])).foldl pushEvent s.cpe.events } }

/-- R11, R37, R61 to R63, R68, R73, R74: what a HANDOVER packet does to the membership of a station that begins no possession on it: one
that it does not name as successor, that is not LISTENING, or that the carried view excludes. A member of the carried view adopts it, one
that is not is dropped or, LEAVING, has left, its unfinished requests FAILED with LEFT and its messages flushed; a pending station in it
becomes a MEMBER. Several members that the adopted view lost are considered together (log 18), and what was theirs leaves the other units
(`unitsWithout`; R62): their readiness entries (R79), places in the in-step set (R82), credit records (R106, R142), pending returns (R136)
and filter entries (R150), the requests to them as FAILED with TARGET LOST (R133), the records directed to them with DESTINATION LOST
(R152), an answer owed to one of them (R122; one being sent goes on, log 35) and an outstanding request to one (R115); the order of the
ATT's and the MSG's events is free (log 5). What becomes of the possession of a MEMBER dropped outside LISTENING and BUS HOLD is the
model's reading (log 19); the bus-hold timer goes on over a drop and stops where a completed leave abandons the hold (R57). Over a drop, a
leave and a join a running application goes on (R122, R123, R174), and with it the writes of a SNAPSHOT part (log 9) and a waiting
application (log 22); so do a part's writes where a lost member ends an installation (log 9); the line-busy indication stands where a leave
switches the receiver off (log 28). -/
def Obligations.HandoverChangesTheMembership : Prop :=
  ∀ (h : Head) (a : Attempt) (v : StationSet) (f : Option Flaw) (s : State), takesPacket h s = true →
    ¬ (h.dest = .station s.number ∧ s.pos.state = .listening ∧ inSet s.number v = true) → recordsMatchView s = true →
    let u := heardBy (.handover h a v f) s
    let raised := fun (e : EventRecord) => { s.cpe with events := pushEvent s.cpe.events e }
    let ask := exec (.handoverHeard h a v f) s
    (s.inView = true → inSet s.number v = true →
      let gone := s.mem.view &&& ~~~ v
      let came := v &&& ~~~ s.mem.view
      let rest := unitsWithout gone u
      ∃ (t : State) (es : List EventRecord), ask = .next t ∧
        t = { u with
          mem := { s.mem with view := v }
          agr := { rest.1 with table := t.agr.table }
          pal := { rest.2.1 with credits := t.pal.credits }
          att := rest.2.2.1
          msg := { rest.2.2.2 with credits := t.msg.credits }
          cpe := { s.cpe with events := ((stations.filter (fun n => inSet n gone)).map
              (fun n => ({ kind := .memberRemoved, station := some n } : EventRecord)) ++
            (stations.filter (fun n => inSet n came)).map
              (fun n => ({ kind := .memberAdded, station := some n } : EventRecord)) ++ es).foldl pushEvent s.cpe.events }
          free := t.free } ∧
        IsMerge (requestsLost gone s.att) (messagesLost gone s.msg) es ∧ recordsMatchView t = true ∧
        (∀ n, inSet n s.mem.view = true → inSet n v = true → t.agr.entry n = s.agr.entry n ∧
          creditOf t.pal.credits n = creditOf s.pal.credits n ∧ creditOf t.msg.credits n = creditOf s.msg.credits n) ∧
        ∀ n, inSet n came = true → t.agr.entry n = some { participant := none, report := none } ∧
          creditOf t.pal.credits n = 0 ∧ creditOf t.msg.credits n = 0) ∧
    (s.startup.life = .joinPending → inSet s.number v = false → ask = .next u) ∧
    (s.startup.life = .joinPending → inSet s.number v = true → ∀ c, s.startup.config = some c → ask = .next { u with
      startup := { s.startup with life := .member }
      mem := { view := v, cursor := s.number, joinPending := false }
      cpe := raised { kind := .joined, station := some h.source }
      agr := { Agr.reset with
        table := (stations.filter (fun n => inSet n v)).map
          (fun n => (n.val, ({ participant := none, report := none } : Readiness)))
        agreement := if c.participant then .inStep else .outside }
      pal := { Pal.reset s.pal.bank with
        installing := s.pal.installing, applications := s.pal.applications, requestTag := s.pal.requestTag
        credits := (stations.filter (fun n => inSet n v)).map (fun n => (n.val, 0)) }
      att := { s.att with requests := [], returns := [] }
      msg := { Msg.reset with
        inbound := s.msg.inbound, tagCounter := s.msg.tagCounter
        credits := (stations.filter (fun n => inSet n v)).map (fun n => (n.val, 0)) } }) ∧
    (∀ life state kind, (s.startup.life = .member ∧ life = .joinPending ∧
          state = (if s.pos.state = .busHold then .busHold else .listening) ∧
          kind = ({ kind := .dropped, station := some h.source } : EventRecord) ∨
        s.startup.life = .leaving ∧ life = .standby ∧ state = .quiet ∧ kind = ({ kind := .left } : EventRecord)) →
      inSet s.number v = false → ask = .next { u with
        startup := { s.startup with life := life }
        lif := if life = .standby then { u.lif with receiver := .off, driver := .released, released := none }
          else { u.lif with driver := match s.lif.driver with
            | .waiting _ => .released
            | d => d }
        pos := { state := state, silence := 0, batch := Batch.idle, slot := none, handover := none, turnaround := none
                 hold := if life = .standby then none else s.pos.hold, fault := s.pos.fault }
        mem := { view := 0, cursor := s.mem.cursor, joinPending := decide (life = .joinPending) }
        agr := (unitsLeft s).1, pal := (unitsLeft s).2.1, att := (unitsLeft s).2.2.1, msg := (unitsLeft s).2.2.2
        cpe := { s.cpe with events := (kind :: leaveEvents s).foldl pushEvent s.cpe.events } })

/-- R37, R38, R71, R78: a LISTENING member named as successor by a view that contains it begins a possession: a MEMBER's first packet is
its STATUS packet, which carries its state as it stands at the grant; a LEAVING station's first packet is LEAVE. Before it the packet
does to the membership what the same packet does that names another station. -/
def Obligations.HandoverBeginsAPossession : Prop :=
  ∀ (h : Head) (a : Attempt) (v : StationSet) (f : Option Flaw) (s : State) (c : ConfigRecord), listensTo h s = true →
    h.dest = .station s.number → inSet s.number v = true → s.startup.config = some c →
    (s.inView = true ∨ s.startup.life = .joinPending) →
    ∃ w t, exec (.handoverHeard { h with dest := .all } a v f) s = .next w ∧ exec (.handoverHeard h a v f) s = .next t ∧
      t = choose { w with pos := { w.pos with
        state := .possessing, slot := none, handover := none, turnaround := none
        batch := { Batch.idle with leaving := decide (s.startup.life = .leaving) } } } ∧
      t.mem.view = v ∧ t.pos.state = .possessing ∧ t.pos.slot = none ∧
      t.pos.batch.count = 0 ∧ t.pos.batch.leaving = decide (s.startup.life = .leaving) ∧
      (s.startup.life ≠ .leaving → t.startup.life = .member ∧
        t.lif.driver = .waiting ⟨.status, .status ⟨s.number, .all, 0, false⟩ (.good (reportOf c t))⟩) ∧
      (s.startup.life = .leaving → t.startup.life = .leaving ∧
        t.lif.driver = .waiting ⟨.leave, .leave ⟨s.number, .all, 0, false⟩ none⟩)

/-- R66: an INVITE packet addressed to a pending station is answered with a JOIN packet that carries the participant flag; any other
changes nothing. R42, R67, R74: a JOIN packet in the inviter's reply slot: the joiner enters the view, unheard with its participant flag
and with credit records of 0, MEMBER ADDED is raised, the slot ends, and the scheduler chooses the next packet; the choice's own event comes
after MEMBER ADDED (log 37). -/
def Obligations.InviteAndJoinAddAMember : Prop :=
  (∀ (h : Head) (f : Option Flaw) (s : State) (c : ConfigRecord), takesPacket h s = true → s.startup.config = some c →
    let u := heardBy (.invite h f) s
    (h.dest = .station s.number → s.startup.life = .joinPending → s.mem.joinPending = true → s.pos.state = .listening →
      exec (.inviteHeard h f) s = .next
      { u with
        pos := { u.pos with state := .replying }
        lif := { u.lif with
          driver := .waiting ⟨.reply, .join ⟨s.number, .station h.source, 0, false⟩ c.participant none⟩ } }) ∧
    (¬ (h.dest = .station s.number ∧ s.startup.life = .joinPending ∧ s.mem.joinPending = true ∧ s.pos.state = .listening) →
      exec (.inviteHeard h f) s = .next u)) ∧
  ∀ (h : Head) (p : Bool) (f : Option Flaw) (s : State) (sl : Slot), canHear s = true → s.startup.life ≠ .halted →
    s.pos.state = .awaitingReply → s.pos.slot = some sl → sl.owner = .invite → h.source = sl.target →
    h.dest = .station s.number → h.source ≠ s.number →
    let raised := fun (e : EventRecord) => { s.cpe with events := pushEvent s.cpe.events e }
    let u := heardBy (.join h p f) s
    ∃ v : State, exec (.joinHeard h p f) s = .next (choose v) ∧
      v = { u with
        pos := { u.pos with state := .possessing, slot := none }
        mem := { s.mem with view := s.mem.view ||| 1#32 <<< h.source.val }
        agr := { s.agr with table := v.agr.table }
        pal := { u.pal with credits := v.pal.credits }
        msg := { s.msg with credits := v.msg.credits }
        cpe := raised { kind := .memberAdded, station := some h.source } } ∧
      v.agr.entry h.source = some { participant := some p, report := none } ∧
      (∀ n, n ≠ h.source → v.agr.entry n = s.agr.entry n) ∧
      creditOf v.pal.credits h.source = 0 ∧ creditOf v.msg.credits h.source = 0 ∧
      ∀ n, n ≠ h.source → creditOf v.pal.credits n = creditOf s.pal.credits n ∧
        creditOf v.msg.credits n = creditOf s.msg.credits n

/-- R80 to R84, R95, R106, R111, R112, R142: a good STATUS packet of a member: its readiness-table entry, the two credit records, a higher
C, the in-step set, the agreement state with IN STEP for a LAGGING station that a rebuild takes back, and the palette divergence it shows.
One whose payload failed zeroes the two credit records of its source, and one from no member, or heard outside the view, changes nothing
more than its hearing. The order of the two units' events is free (log 5). Over a divergence the writes of a part last heard and a
waiting application go on (log 9, log 22). -/
def Obligations.StatusUpdatesTheStation : Prop :=
  (∀ (h : Head) (b : StatusBody) (s : State), takesPacket h s = true → s.inView = true → inSet h.source s.mem.view = true →
    recordsMatchView s = true →
    let u := heardBy (.status h (.good b)) s
    let pal := palTakesStatus h.source b u.pal
    ∃ (t : State) (agreed es : List EventRecord), exec (.statusHeard h (.good b)) s = .next t ∧
      t = { u with
        agr := t.agr, pal := pal.1, msg := { s.msg with credits := t.msg.credits }
        cpe := { s.cpe with events := es.foldl pushEvent s.cpe.events }, free := t.free } ∧
      TakesStatus s.number s.mem.view h.source b s.agr t.agr agreed ∧ IsMerge agreed pal.2 es ∧
      creditOf t.pal.credits h.source = min 16 b.paletteCredit.toNat ∧
      creditOf t.msg.credits h.source = min 8 b.messageCredit.toNat ∧
      ∀ n, n ≠ h.source → creditOf t.pal.credits n = creditOf s.pal.credits n ∧
        creditOf t.msg.credits n = creditOf s.msg.credits n) ∧
  ∀ (h : Head) (p : Payload StatusBody) (s : State), takesPacket h s = true →
    let u := heardBy (.status h p) s
    ((s.inView = false ∨ inSet h.source s.mem.view = false) → exec (.statusHeard h p) s = .next u) ∧
    (∀ f, p = .failed f → s.inView = true → inSet h.source s.mem.view = true → ∃ t, exec (.statusHeard h p) s = .next t ∧
      t = { u with pal := { u.pal with credits := t.pal.credits }, msg := { u.msg with credits := t.msg.credits } } ∧
      creditOf t.pal.credits h.source = 0 ∧ creditOf t.msg.credits h.source = 0 ∧
      ∀ n, n ≠ h.source → creditOf t.pal.credits n = creditOf u.pal.credits n ∧
        creditOf t.msg.credits n = creditOf u.msg.credits n)

/-- R89, R90: a good COMMIT packet heard in the view whose N exceeds C is adopted: C, the in-step set cut to the view, the wait count and
the agreement state with its event; one whose N does not, or whose payload failed, changes nothing, and a station outside the view, in
JOIN PENDING, takes nothing from any. -/
def Obligations.CommitIsAdoptedOrIgnored : Prop :=
  (∀ (h : Head) (p : Payload CommitBody) (s : State), takesPacket h s = true → s.inView = false →
    exec (.commitHeard h p) s = .next (heardBy (.commit h p) s)) ∧
  ∀ (h : Head) (b : CommitBody) (s : State), takesPacket h s = true → s.inView = true →
    let u := heardBy (.commit h (.good b)) s
    let adopted := fun (g : Agreement) => { s.agr with
      c := b.n, inStep := b.inStep &&& s.mem.view, known := true, wait := 0, deadlineReported := false, agreement := g }
    let raised := fun (e : EventRecord) => { s.cpe with events := pushEvent s.cpe.events e }
    let ask := exec (.commitHeard h (.good b)) s
    (b.n ≤ s.agr.c → ask = .next u) ∧
    (s.agr.c < b.n →
      (s.agr.agreement = .outside ∨ s.agr.agreement = .inStep ∧ inSet s.number b.inStep = true ∨
        s.agr.agreement = .lagging ∧ inSet s.number b.inStep = false →
          ask = .next { u with agr := adopted s.agr.agreement }) ∧
      (s.agr.agreement = .inStep → inSet s.number b.inStep = false → ask = .next { u with
        agr := adopted .lagging
        cpe := raised { kind := .lagging, sequence := some b.n, station := some h.source } }) ∧
      (s.agr.agreement = .lagging → inSet s.number b.inStep = true → ask = .next { u with
        agr := adopted .inStep
        cpe := raised { kind := .inStep, sequence := some b.n } })) ∧
    ∀ f, exec (.commitHeard h (.failed f)) s = .next (heardBy (.commit h (.failed f)) s)

/-- R106, R108, R111, R112: a PALETTE packet heard in the view lowers every credit record by 1. In NORMAL a record with the expected
serial, a run inside the bank and a free place in the store is appended and E counts on; a failed payload, a run past the bank, another
serial and a full store each make the palette diverge, judged in that order. Over a divergence a running application goes on (R112, R174),
and with it the writes of a part last heard (log 9) and a waiting application (log 22). A station outside the view, in JOIN PENDING, takes
nothing from it. -/
def Obligations.PaletteRecordIsAppendedOrDiverges : Prop :=
  (∀ (h : Head) (p : Payload UpdateRecord) (s : State), takesPacket h s = true → s.inView = false →
    exec (.paletteHeard h p) s = .next (heardBy (.palette h p) s)) ∧
  ∀ (h : Head) (p : Payload UpdateRecord) (s : State), takesPacket h s = true → s.inView = true →
    let u := heardBy (.palette h p) s
    let raised := fun (e : EventRecord) => { s.cpe with events := pushEvent s.cpe.events e }
    ∃ t, exec (.paletteHeard h p) s = .next t ∧ t = { u with pal := t.pal, cpe := t.cpe } ∧
      (∀ n, creditOf t.pal.credits n = creditOf s.pal.credits n - 1) ∧
      (s.pal.state ≠ .normal → t.pal = { u.pal with credits := t.pal.credits } ∧ t.cpe = s.cpe) ∧
      (s.pal.state = .normal →
        let diverged := fun (why : Reason) =>
          t.pal = { s.pal with
            credits := t.pal.credits, state := .resync, store := [], outbound := [], owed := none, candidate := none
            outstanding := false, wait := none, install := none, answer := none } ∧
          t.cpe = raised { kind := .paletteDiverged, station := some h.source, reason := some why }
        (∀ f, p = .failed f → diverged .check) ∧
        ∀ r, p = .good r →
          (512 < r.start.toNat + r.entries.length → diverged .check) ∧
          (r.start.toNat + r.entries.length ≤ 512 → r.serial ≠ s.pal.e → diverged .serial) ∧
          (r.start.toNat + r.entries.length ≤ 512 → r.serial = s.pal.e → 16 ≤ s.pal.store.length → diverged .full) ∧
          (r.start.toNat + r.entries.length ≤ 512 → r.serial = s.pal.e → s.pal.store.length < 16 →
            t.pal = { s.pal with credits := t.pal.credits, store := s.pal.store ++ [r], e := s.pal.e + 1 } ∧ t.cpe = s.cpe))

/-- R44, R117: a SNAPSHOT REQUEST packet addressed to a LISTENING MEMBER is answered: REFUSED STATE outside NORMAL, REFUSED BUSY while an
answer is owed, else ACCEPTED with the requester and the tag recorded; any other packet of the kind changes nothing. -/
def Obligations.SnapshotRequestIsAnswered : Prop :=
  ∀ (h : Head) (f : Option Flaw) (s : State), takesPacket h s = true →
    let u := heardBy (.snapshotRequest h f) s
    let answer := fun (r : AckResult) (v : State) => ({ v with
      pos := { v.pos with state := .replying }
      lif := { v.lif with
        driver := .waiting ⟨.reply, .ack ⟨s.number, .station h.source, h.tag, false⟩ r h.corrected none⟩ } } : State)
    let ask := exec (.snapshotRequestHeard h f) s
    (¬ (h.dest = .station s.number ∧ s.startup.life = .member ∧ s.pos.state = .listening) → ask = .next u) ∧
    (h.dest = .station s.number → s.startup.life = .member → s.pos.state = .listening →
      (s.pal.state ≠ .normal → ask = .next (answer .refusedState u)) ∧
      (s.pal.state = .normal → s.pal.owed ≠ none → ask = .next (answer .refusedBusy u)) ∧
      (s.pal.state = .normal → s.pal.owed = none →
        ask = .next (answer .accepted { u with pal := { u.pal with owed := some { requester := h.source, tag := h.tag } } })))

/-- R120, R121, R174: the packets of an awaited answer. Part 0 begins the installation, and the 64 entries of each part are to be written
into the bank after those of the part before it (one every 20 ns, log 9); the next REPLAY packet is appended to the pending store; the
last packet completes the installation: NORMAL, E is E0, the candidate record reset, PALETTE RESYNCED. Any other part or REPLAY packet of
the answer, and one with a failed payload, fails the installation, or, before part 0, ends the request; a part 0 with a failed payload or a
replay count above 16 begins none. A packet of the kinds that is not of the answer (no request outstanding, another source, another
destination, another tag), and any heard outside the view, is discarded: it does what hearing a packet does, which fails an installation in
progress (R121; log 17), and no more. The writes of the part last heard go on where the installation fails (log 9). -/
def Obligations.AnswerIsInstalled : Prop :=
  (∀ (h : Head) (s : State), takesPacket h s = true →
    (s.inView = false ∨ s.pal.outstanding = false ∨ s.pal.candidate ≠ some h.source ∨ h.dest ≠ .station s.number ∨
      h.tag ≠ s.pal.requestTag) →
    (∀ part p, exec (.snapshotHeard h part p) s = .next (heardBy (.snapshot h part p) s)) ∧
    ∀ p, exec (.replayHeard h p) s = .next (heardBy (.replay h p) s)) ∧
  ∀ (h : Head) (s : State), takesPacket h s = true → s.inView = true → s.pal.outstanding = true → s.pal.candidate = some h.source →
    h.dest = .station s.number → h.tag = s.pal.requestTag →
    let raised := fun (e : EventRecord) => { s.cpe with events := pushEvent s.cpe.events e }
    let ended := { s.pal with
      state := .resync, outstanding := false, wait := none, install := none
      store := if s.pal.state = .receiving then [] else s.pal.store }
    (∀ (part : Byte) (p : Payload SnapshotBody),
      let u := heardBy (.snapshot h part p) s
      let ask := exec (.snapshotHeard h part p) s
      (∀ lead entries, p = .good { lead := lead, entries := entries } → entries.length = 64 →
        let installed := fun (t : State) =>
          t.pal.bank = s.pal.bank.writeAll s.pal.installing ∧
          t.pal.installing = entries.zipIdx.map (fun e => (64 * part.toNat + e.2, e.1)) ∧
          ∀ i, (t.pal.bank.writeAll t.pal.installing).read i =
            if 64 * part.toNat ≤ i ∧ i < 64 * part.toNat + 64 then entries.getD (i - 64 * part.toNat) 0 else t.pal.bank.read i
        (∀ l, s.pal.state = .resync → part = 0 → lead = some l → l.n.toNat ≤ 16 → ∃ t, ask = .next t ∧ installed t ∧ t = { u with
          pal := { s.pal with
            bank := t.pal.bank, installing := t.pal.installing, state := .receiving
            install := some { s := l.s, e0 := l.e0, n := l.n.toNat, nextPart := 1, replays := 0 } } }) ∧
        (∀ l, s.pal.state = .resync → part = 0 → lead = some l → 16 < l.n.toNat → ask = .next u ∧ u.pal = s.pal) ∧
        (∀ i, s.pal.state = .receiving → s.pal.install = some i → i.nextPart = part.toNat → 1 ≤ part.toNat → part.toNat ≤ 7 →
          ∃ t, ask = .next t ∧ installed t ∧
            (¬ (part = 7 ∧ i.n = i.replays) → t = { u with pal := { s.pal with
              bank := t.pal.bank, installing := t.pal.installing, install := some { i with nextPart := i.nextPart + 1 } } }) ∧
            (part = 7 → i.n = i.replays → t = { u with
              pal := { s.pal with
                bank := t.pal.bank, installing := t.pal.installing, state := .normal, e := i.e0, wait := none
                outstanding := false, candidate := none, install := none }
              cpe := raised { kind := .paletteResynced, station := some h.source, sequence := some i.s } }))) ∧
      (∀ i, s.pal.state = .receiving → s.pal.install = some i → ((∃ f, p = .failed f) ∨ part.toNat ≠ i.nextPart ∨ 8 ≤ i.nextPart) →
        ask = .next { u with pal := ended }) ∧
      (s.pal.state = .resync → 1 ≤ part.toNat → part.toNat ≤ 7 → ask = .next { u with pal := ended }) ∧
      (s.pal.state = .resync → part = 0 → (∃ f, p = .failed f) → ask = .next u ∧ u.pal = s.pal) ∧
      (s.pal.state = .normal → ask = .next u ∧ u.pal = s.pal)) ∧
    ∀ p : Payload UpdateRecord,
      let u := heardBy (.replay h p) s
      let ask := exec (.replayHeard h p) s
      (∀ i, s.pal.state = .receiving → s.pal.install = some i →
        let isNext := fun (r : UpdateRecord) => p = .good r ∧ i.nextPart = 8 ∧ i.replays < i.n ∧
          r.serial = i.e0 - BitVec.ofNat 16 i.n + BitVec.ofNat 16 i.replays ∧ r.start.toNat + r.entries.length ≤ 512
        (∀ r, isNext r → i.replays + 1 < i.n → ask = .next { u with
          pal := { s.pal with store := s.pal.store ++ [r], install := some { i with replays := i.replays + 1 } } }) ∧
        (∀ r, isNext r → i.replays + 1 = i.n → ask = .next { u with
          pal := { s.pal with
            store := s.pal.store ++ [r], state := .normal, e := i.e0, wait := none, outstanding := false, candidate := none
            install := none }
          cpe := raised { kind := .paletteResynced, station := some h.source, sequence := some i.s } }) ∧
        ((∀ r, ¬ isNext r) → ask = .next { u with pal := ended })) ∧
      (s.pal.state = .resync → ask = .next { u with pal := ended }) ∧
      (s.pal.state = .normal → ask = .next u ∧ u.pal = s.pal)

/-- R44, R142, R148 to R150: a MESSAGE packet heard in the view lowers the credit records of its destinations; one for this station or for
ALL, from a member, good, on an open stream, not a repeat and with a free place is delivered; a directed one that asks for it is
answered by a MEMBER with the outcome. A station outside the view, in JOIN PENDING, takes nothing from it. -/
def Obligations.MessageIsDeliveredAndAnswered : Prop :=
  (∀ (h : Head) (ack : Bool) (stream : BitVec 2) (p : Payload (List Byte)) (s : State), takesPacket h s = true → s.inView = false →
    exec (.messageHeard h ack stream p) s = .next (heardBy (.message h ack stream p) s)) ∧
  ∀ (h : Head) (ack : Bool) (stream : BitVec 2) (p : Payload (List Byte)) (s : State) (c : ConfigRecord),
    takesPacket h s = true → s.inView = true → s.startup.config = some c →
    let u := heardBy (.message h ack stream p) s
    let isOpen := c.openStreams.getLsbD stream.toNat = true
    let raised := fun (e : EventRecord) => { s.cpe with events := pushEvent s.cpe.events e }
    let isRepeat := h.dest ≠ .all ∧ Table.get? s.msg.filter h.source.val = some h.tag
    let delivered := fun (payload : List Byte) => p = .good payload ∧ (h.dest = .station s.number ∨ h.dest = .all) ∧
      inSet h.source s.mem.view = true ∧ isOpen ∧ ¬ isRepeat ∧ s.msg.inbound.length < 8
    let answered := h.dest = .station s.number ∧ ack = true ∧ s.startup.life = .member ∧ s.pos.state = .listening
    let answer := fun (t : State) (r : AckResult) =>
      t.lif.driver = .waiting ⟨.reply, .ack ⟨s.number, .station h.source, h.tag, false⟩ r h.corrected none⟩
    ∃ t, exec (.messageHeard h ack stream p) s = .next t ∧ t = { u with lif := t.lif, pos := t.pos, msg := t.msg, cpe := t.cpe } ∧
      (∀ n, creditOf t.msg.credits n = if h.dest = .station n ∨ h.dest = .all ∧ n ≠ h.source
        then creditOf s.msg.credits n - 1 else creditOf s.msg.credits n) ∧
      ((∀ payload, ¬ delivered payload) → t.msg = { s.msg with credits := t.msg.credits } ∧ t.cpe = s.cpe) ∧
      (∀ payload, delivered payload →
        t.msg = { s.msg with
          credits := t.msg.credits, filter := t.msg.filter
          inbound := s.msg.inbound ++
            [{ source := h.source, stream := stream, broadcast := decide (h.dest = .all), payload := payload }] } ∧
        (h.dest = .all → t.msg.filter = s.msg.filter) ∧
        (h.dest ≠ .all → Table.get? t.msg.filter h.source.val = some h.tag ∧
          ∀ n, n ≠ h.source.val → Table.get? t.msg.filter n = Table.get? s.msg.filter n) ∧
        t.cpe = raised ⟨.messageArrived, some h.source, none, some h.tag, if h.dest = .all then some .broadcast else none, none,
          false⟩) ∧
      (¬ answered → t.lif = u.lif ∧ t.pos = u.pos) ∧
      (answered → t.pos = { u.pos with state := .replying } ∧ t.lif = { u.lif with driver := t.lif.driver } ∧
        (inSet h.source s.mem.view = false → answer t .refusedState) ∧
        (inSet h.source s.mem.view = true →
          (∀ f, p = .failed f → answer t .payloadFailed) ∧
          ∀ payload, p = .good payload →
            (¬ isOpen → answer t .streamClosed) ∧
            (isOpen → isRepeat → answer t .ok) ∧
            (isOpen → ¬ isRepeat → 8 ≤ s.msg.inbound.length → answer t .queueFull) ∧
            (isOpen → ¬ isRepeat → s.msg.inbound.length < 8 → answer t .ok)))

/-- R44, R135, R137: READ and WRITE packets addressed to a LISTENING MEMBER are answered: REFUSED RANGE or REFUSED BUSY, or ACCEPTED with
the READ queued for its return; REFUSED READ-ONLY or REFUSED RANGE, or ACCEPTED with the attribute written at once. Any other packet of the
kinds changes nothing. -/
def Obligations.ReadAndWriteOfPeersAreAnswered : Prop :=
  ∀ (h : Head) (f : Option Flaw) (s : State), takesPacket h s = true →
    let answer := fun (r : AckResult) (v : State) => ({ v with
      pos := { v.pos with state := .replying }
      lif := { v.lif with
        driver := .waiting ⟨.reply, .ack ⟨s.number, .station h.source, h.tag, false⟩ r h.corrected none⟩ } } : State)
    let raised := fun (e : EventRecord) => { s.cpe with events := pushEvent s.cpe.events e }
    let mine := h.dest = .station s.number ∧ s.startup.life = .member ∧ s.pos.state = .listening
    (∀ start count : Byte,
      let u := heardBy (.read h start count f) s
      let ask := exec (.readHeard h start count f) s
      let inRange := 1 ≤ count.toNat ∧ count.toNat ≤ 16 ∧ start.toNat + count.toNat ≤ 64
      (¬ mine → ask = .next u) ∧
      (mine → ¬ inRange → ask = .next (answer .refusedRange u)) ∧
      (mine → inRange → 4 ≤ s.att.returns.length → ask = .next (answer .refusedBusy u)) ∧
      (mine → inRange → s.att.returns.length < 4 → ask = .next (answer .accepted { u with
        att := { s.att with returns := s.att.returns ++
          [{ requester := h.source, tag := h.tag, start := start, count := count }] } }))) ∧
    ∀ (index : Byte) (value : Value),
      let u := heardBy (.write h index value f) s
      let ask := exec (.writeHeard h index value f) s
      (¬ mine → ask = .next u) ∧
      (mine → index.toNat < 32 → ask = .next (answer .refusedReadOnly u)) ∧
      (mine → 63 < index.toNat → ask = .next (answer .refusedRange u)) ∧
      (mine → 32 ≤ index.toNat → index.toNat ≤ 63 → ∃ table, ask = .next (answer .accepted { u with
        att := { s.att with table := table }
        cpe := raised ⟨.attributeWritten, some h.source, none, some index, none, none, false⟩ }) ∧
        ∀ t : State, t.att.table = table → readAttr t index.toNat = ⟨value, .peer h.source⟩ ∧
          ∀ i, 8 ≤ i → i ≠ index.toNat → readAttr t i = readAttr s i)

/-- R132: a READ RETURN packet addressed to the station ends the entry in AWAITING RETURN that holds its tag and names its source: DONE with
the values of a good payload whose start and count are the entry's, else FAILED with CHECK; any other is discarded. The request timeout
ends such an entry FAILED with TIMEOUT, and changes nothing where no such entry waits (log 2). -/
def Obligations.ReturnOrTimeoutEndsARead : Prop :=
  ∀ s : State,
    let entered := fun (tag : Byte) (r : Request) => { s.att with requests := s.att.requests.map (fun q => if q.tag = tag then r else q) }
    let raised := fun (e : EventRecord) => { s.cpe with events := pushEvent s.cpe.events e }
    (∀ (h : Head) (start count : Byte) (p : Payload (List Value)), takesPacket h s = true →
      let u := heardBy (.readReturn h start count p) s
      let ask := exec (.readReturnHeard h start count p) s
      let failed := fun (r : Request) => ask = .next { u with
        att := entered h.tag { r with state := .failed .check }
        cpe := raised { kind := .requestFailed, station := some r.target, tag := some h.tag, reason := some .check } }
      (¬ (h.dest = .station s.number ∧ s.inView = true) → ask = .next u) ∧
      (h.dest = .station s.number → s.inView = true →
        ((∀ r n, s.att.find h.tag = some r → r.state = .awaitingReturn n → r.target ≠ h.source) → ask = .next u) ∧
        ∀ r n, s.att.find h.tag = some r → r.state = .awaitingReturn n → r.target = h.source →
          (∀ vs, p = .good vs → r.kind = .read start count → ask = .next { u with
            att := entered h.tag { r with state := .done vs }
            cpe := raised { kind := .requestDone, station := some r.target, tag := some h.tag } }) ∧
          (∀ vs, p = .good vs → r.kind ≠ .read start count → failed r) ∧
          ∀ f, p = .failed f → failed r)) ∧
    ∀ tag : Byte, s.inReset = false →
      ((∀ r n, s.att.find tag = some r → r.state ≠ .awaitingReturn n) → exec (.requestTimeout tag) s = .next s) ∧
      ∀ r n, s.att.find tag = some r → r.state = .awaitingReturn n →
        exec (.requestTimeout tag) s = .next { s with
          att := { s.att with requests := s.att.requests.map (fun q =>
            if q.tag = tag then { q with state := .failed .timeout } else q) }
          cpe := raised { kind := .requestFailed, station := some r.target, tag := some tag, reason := some .timeout } }

/-- The outcome of a message's reply slot (R42, R142, R145, R146): the ACK heard in the slot, or NO REPLY when the window ends without
activity. OK delivers it and STREAM CLOSED fails it; after any other outcome it is the retry record until its third attempt fails (`held`
and `retry`: log 27). QUEUE FULL zeroes its sender's credit record. The scheduler then chooses the next packet, and the choice's own event
comes after the message's (log 37). -/
def Obligations.SlotOutcomeForAMessage : Prop :=
  ∀ (s u : State) (sl : Slot) (m : OutMessage) (c : Instr) (outcome : Option AckResult) (corrected : Bool),
    s.pos.state = .awaitingReply → s.pos.slot = some sl → sl.owner = .message →
    (s.msg.held = some m ∨ s.msg.held = none ∧ s.msg.retry = some m) →
    (c = .replyWindowEnd ∧ outcome = none ∧ u = s ∧ s.inReset = false ∧ sl.activity = false ∨
      ∃ h r f, c = .ackHeard h r corrected f ∧ outcome = some r ∧ u = heardBy (.ack h r corrected f) s ∧ canHear s = true ∧
        s.startup.life ≠ .halted ∧ h.source = sl.target ∧ h.dest = .station s.number ∧ h.tag = sl.tag ∧ h.source ≠ s.number) →
    let event := fun (k : EventKind) (why : Option Reason) => ({ kind := k, tag := some m.tag, reason := why
                                                                 station := match m.dest with
                                                                   | .station n => some n
                                                                   | .all => none } : EventRecord)
    let ends := fun (retry : Option OutMessage) (es : List EventRecord) => exec c s = .next (choose { u with
      pos := { u.pos with state := .possessing, slot := none }
      msg := { s.msg with
        held := none, retry := retry
        credits := if outcome = some .queueFull
          then s.msg.credits.map (fun e => (e.1, if e.1 = sl.target.val then 0 else e.2)) else s.msg.credits }
      cpe := { s.cpe with events := es.foldl pushEvent s.cpe.events } })
    let again := fun (why : Reason) =>
      (m.attempts < 3 → ends (some m) []) ∧ (3 ≤ m.attempts → ends none [event .messageFailed (some why)])
    (outcome = some .ok → ends none [event .messageDelivered (if corrected then some .corrected else none)]) ∧
    (outcome = some .streamClosed → ends none [event .messageFailed (some .streamClosed)]) ∧
    (outcome = some .payloadFailed → again .payloadFailed) ∧
    (outcome = some .queueFull → again .queueFull) ∧
    (outcome ∉ [some .ok, some .streamClosed, some .payloadFailed, some .queueFull] → again .noReply)

/-- The outcome of a request's reply slot (R27, R42, R131): the ACK heard in the slot, or NO REPLY when the window ends without activity.
ACCEPTED makes a READ wait for its return and finishes a WRITE; a refusal of range or as read-only fails it; after any other outcome it
stays QUEUED until its fourth attempt fails. QUEUE FULL zeroes its sender's message credit in this slot too (log 25). The scheduler then
chooses the next packet, and the choice's own event comes after the request's (log 37). -/
def Obligations.SlotOutcomeForARequest : Prop :=
  ∀ (s u : State) (sl : Slot) (tag : Byte) (q : Request) (c : Instr) (outcome : Option AckResult) (corrected : Bool),
    s.pos.state = .awaitingReply → s.pos.slot = some sl → sl.owner = .request tag → s.att.find tag = some q →
    (c = .replyWindowEnd ∧ outcome = none ∧ corrected = q.corrected ∧ u = s ∧ s.inReset = false ∧ sl.activity = false ∨
      ∃ h r f, c = .ackHeard h r corrected f ∧ outcome = some r ∧ u = heardBy (.ack h r corrected f) s ∧ canHear s = true ∧
        s.startup.life ≠ .halted ∧ h.source = sl.target ∧ h.dest = .station s.number ∧ h.tag = sl.tag ∧ h.source ≠ s.number) →
    let event := fun (k : EventKind) (why : Option Reason) =>
      ({ kind := k, station := some q.target, tag := some q.tag, reason := why } : EventRecord)
    let ends := fun (state : RequestState) (es : List EventRecord) => exec c s = .next (choose { u with
      pos := { u.pos with state := .possessing, slot := none }
      att := { s.att with requests := s.att.requests.map (fun o =>
        if o.tag = tag then { q with state := state, corrected := corrected } else o) }
      msg := { s.msg with credits := if outcome = some .queueFull
        then s.msg.credits.map (fun e => (e.1, if e.1 = sl.target.val then 0 else e.2)) else s.msg.credits }
      cpe := { s.cpe with events := es.foldl pushEvent s.cpe.events } })
    let again := fun (why : Reason) =>
      (q.attempts < 4 → ends q.state []) ∧ (4 ≤ q.attempts → ends (.failed why) [event .requestFailed (some why)])
    (outcome = some .accepted →
      (∀ start count, q.kind = .read start count → ends (.awaitingReturn 0) []) ∧
      ∀ index value, q.kind = .write index value → ends (.done []) [event .requestDone none]) ∧
    (outcome = some .refusedRange → ends (.failed .range) [event .requestFailed (some .range)]) ∧
    (outcome = some .refusedReadOnly → ends (.failed .readOnly) [event .requestFailed (some .readOnly)]) ∧
    (outcome = some .refusedBusy → again .busy) ∧
    (outcome ∉ [some .accepted, some .refusedRange, some .refusedReadOnly, some .refusedBusy] → again .noReply)

/-- The reply slot of an INVITE and of a SNAPSHOT REQUEST packet (R42, R114): no activity in the window is NO REPLY, which adds no member
and makes no request outstanding; ACK ACCEPTED makes the request outstanding and starts the snapshot wait, any other ACK does not, and ACK
QUEUE FULL zeroes its sender's message credit in this slot too (log 25). The scheduler then chooses the next packet, and the choice's own
event comes last (log 37). In any slot an unreadable packet is NO REPLY when it is heard (R25, R42), and a readable packet from another
station that is not the reply is a possession conflict (R43): NO REPLY to the waiting unit, LISTENING with the possession given up, and the
packet is then taken as in LISTENING. The writes of the part last heard go on where an installation fails (log 9). -/
def Obligations.SlotEndsForTheOtherPackets : Prop :=
  ∀ (s : State) (sl : Slot), s.inReset = false → s.pos.state = .awaitingReply → s.pos.slot = some sl →
    let resumed := fun (p : Pos) => { p with state := .possessing, slot := none }
    let raised := fun (e : EventRecord) => { s.cpe with events := pushEvent s.cpe.events e }
    (sl.activity = false →
      (sl.owner = .invite → exec .replyWindowEnd s = .next (choose { s with pos := resumed s.pos })) ∧
      (sl.owner = .snapshotRequest → exec .replyWindowEnd s = .next (choose
        { s with pos := resumed s.pos, pal := { s.pal with outstanding := false } }))) ∧
    (sl.activity = true → exec .replyWindowEnd s = .next s) ∧
    (canHear s = true → s.startup.life ≠ .halted →
      (∀ h r c f, sl.owner = .snapshotRequest → h.source = sl.target → h.dest = .station s.number → h.tag = sl.tag →
        h.source ≠ s.number →
        let u := heardBy (.ack h r c f) s
        exec (.ackHeard h r c f) s = .next (choose { u with
          pos := resumed u.pos
          pal := if r = .accepted then { u.pal with outstanding := true, wait := some 0 } else { u.pal with outstanding := false }
          msg := if r = .queueFull then { s.msg with credits := setCredit s.msg.credits sl.target 0 } else s.msg })) ∧
      (∀ e : Unreadable, s.inView = true → exec (.unreadablePacketHeard e) s = exec .replyWindowEnd { s with
        lif := { s.lif with receiver := if s.lif.receiver = .armed then .armed else .draining, lastError := some (.unreadable e) }
        pos := { s.pos with silence := 0, slot := some { sl with activity := false } }
        pal := { (if s.pal.state = .receiving then { s.pal with state := .resync, store := [], outstanding := false,
                                                                wait := none, install := none } else s.pal)
                 with credits := zeroOthers s.number s.pal.credits }
        msg := { s.msg with credits := zeroOthers s.number s.msg.credits } }) ∧
      ∀ k : Packet, k.head.source ≠ s.number →
        (sl.owner = .invite → ∀ h p f, k = .join h p f → ¬ (h.source = sl.target ∧ h.dest = .station s.number)) →
        (sl.owner ≠ .invite → ∀ h r c f, k = .ack h r c f →
          ¬ (h.source = sl.target ∧ h.dest = .station s.number ∧ h.tag = sl.tag)) →
        let u := heardBy k s
        ∃ w, exec k.row s = .next (actOn k w) ∧
          w = { u with
            pos := { u.pos with state := .listening, batch := Batch.idle, slot := none, handover := none, turnaround := none }
            pal := w.pal, att := w.att, msg := w.msg, cpe := w.cpe } ∧
          w.pal = (if sl.owner = .snapshotRequest then { u.pal with outstanding := false } else u.pal) ∧
          (sl.owner = .invite ∨ sl.owner = .snapshotRequest → w.att = s.att ∧ w.msg = s.msg ∧ w.cpe = s.cpe) ∧
          (∀ tag, sl.owner = .request tag → w.msg = s.msg ∧ ∀ q, s.att.find tag = some q →
            (q.attempts < 4 → w.cpe = s.cpe ∧ w.att = { s.att with requests := s.att.requests.map (fun o => if o.tag = tag then q else o) }) ∧
            (4 ≤ q.attempts →
              w.att = { s.att with requests := s.att.requests.map (fun o =>
                if o.tag = tag then { q with state := .failed .noReply } else o) } ∧
              w.cpe = raised { kind := .requestFailed, station := some q.target, tag := some q.tag, reason := some .noReply })) ∧
          (sl.owner = .message → w.att = s.att ∧ ∀ m, (s.msg.held = some m ∨ s.msg.held = none ∧ s.msg.retry = some m) →
            (m.attempts < 3 → w.msg = { s.msg with held := none, retry := some m } ∧ w.cpe = s.cpe) ∧
            (3 ≤ m.attempts → w.msg = { s.msg with held := none, retry := none } ∧
              w.cpe = raised { kind := .messageFailed, tag := some m.tag, reason := some .noReply
                               station := match m.dest with
                                 | .station n => some n
                                 | .all => none })))

/-! ### The ends of windows and timers (chapters 3, 4 and 6) -/

/-- R47, R48, R70, R78, R136: a turnaround window that ends without activity. A sole member begins the next possession, with its STATUS
packet or, in LEAVING, its LEAVE packet; after attempt 1 the HANDOVER packet is repeated as attempt 2; after attempt 2 the successor is
removed and the next one named by attempt 1. What was the removed station's leaves the other units, as where a view is adopted
(`unitsWithout`; R79, R82, R106, R115, R122, R133, R150, R152; an answer being sent goes on, log 35, and the writes of the part last heard
where an installation fails, log 9); the order of the ATT's and the MSG's
events is free (log 5). -/
def Obligations.TurnaroundWindowEnds : Prop :=
  ∀ (s : State) (run : HandoverRun) (c : ConfigRecord), s.inReset = false → s.pos.state = .handingOver → s.pos.turnaround ≠ none →
    s.pos.handover = some run → s.startup.config = some c →
    (run.successor = s.number → ∃ (t : State) (tx : Tx), exec .turnaroundWindowEnd s = .next t ∧ t = { s with
        lif := { s.lif with driver := .waiting tx }
        pos := { s.pos with state := .possessing, batch := t.pos.batch, slot := none, handover := none, turnaround := none }
        att := { s.att with returns := s.att.returns.dropWhile (fun r => !inSet r.requester s.mem.view) } } ∧
      t.pos.batch.count = 0 ∧
      (s.startup.life = .member → tx = ⟨.status, .status ⟨s.number, .all, 0, false⟩ (.good (reportOf c s))⟩) ∧
      (s.startup.life = .leaving → tx = ⟨.leave, .leave ⟨s.number, .all, 0, false⟩ none⟩)) ∧
    (run.successor ≠ s.number → run.attempt = .first → exec .turnaroundWindowEnd s = .next
      { s with
        lif := { s.lif with
          driver := .waiting ⟨.handover, .handover ⟨s.number, .station run.successor, 0, false⟩ .second run.view none⟩ }
        pos := { s.pos with turnaround := none, handover := some { run with attempt := .second } } }) ∧
    (run.successor ≠ s.number → run.attempt = .second →
      let gone := 1#32 <<< run.successor.val
      let v := s.mem.view &&& ~~~ gone
      let rest := unitsWithout gone s
      ∀ next, IsSuccessor s.number v next → ∃ (t : State) (es : List EventRecord), exec .turnaroundWindowEnd s = .next t ∧
        t = { s with
          lif := { s.lif with driver := .waiting ⟨.handover, .handover ⟨s.number, .station next, 0, false⟩ .first v none⟩ }
          pos := { s.pos with turnaround := none, handover := some ⟨.first, next, v⟩ }
          mem := { s.mem with view := v }, agr := rest.1, pal := rest.2.1, att := rest.2.2.1, msg := rest.2.2.2
          cpe := { s.cpe with
            events := (⟨.memberRemoved, some run.successor, none, none, some .noAnswer, none, false⟩ :: es).foldl pushEvent s.cpe.events }
          free := t.free } ∧
        IsMerge (requestsLost gone s.att) (messagesLost gone s.msg) es ∧
        t.agr.entry run.successor = none ∧ ∀ n, n ≠ run.successor → t.agr.entry n = s.agr.entry n)

/-- R35, R36, R53, R69, R115: the ends of the claim delay and the founding silence, each followed by a CLAIM packet, of the bus-hold
interval and of the snapshot wait. A station that founds keeps its bank, with a running application (R122, R174), the writes of a SNAPSHOT
part (log 9) and a waiting application (log 22); a part's writes go on too where the snapshot wait ends an installation (log 9). The row of
a timer that does not run changes nothing (log 2). -/
def Obligations.SilencesAndTimersEnd : Prop :=
  ∀ s : State, s.inReset = false →
    let claimed := fun (p : Pos) (leaving : Bool) => { p with
      state := .possessing, batch := { Batch.idle with leaving := leaving }, slot := none, handover := none, turnaround := none }
    let claim := Driver.waiting ⟨.claim, .claim ⟨s.number, .all, 0, false⟩ none⟩
    (s.inView = true → s.pos.state = .listening → exec .claimDelayExpiry s = .next
      { s with lif := { s.lif with driver := claim }, pos := claimed s.pos (decide (s.startup.life = .leaving)) }) ∧
    (∀ c, s.startup.life = .joinPending → s.pos.state = .listening → s.startup.config = some c →
      exec .foundingSilenceExpiry s = .next
        { s with
          startup := { s.startup with life := .member }
          lif := { s.lif with driver := claim }
          pos := claimed s.pos false
          mem := { view := 1#32 <<< s.number.val, cursor := s.number, joinPending := false }
          agr := { Agr.reset with
            table := [(s.number.val, { participant := none, report := none })], known := true
            agreement := if c.participant then .inStep else .outside }
          pal := { Pal.reset s.pal.bank with
            installing := s.pal.installing, applications := s.pal.applications, requestTag := s.pal.requestTag
            credits := [(s.number.val, 0)], state := .normal }
          att := { s.att with requests := [], returns := [] }
          msg := { Msg.reset with
            inbound := s.msg.inbound, tagCounter := s.msg.tagCounter, credits := [(s.number.val, 0)] }
          cpe := { s.cpe with
            events := pushEvent s.cpe.events ⟨.joined, some s.number, none, none, some .founded, none, false⟩ } }) ∧
    (s.pos.state = .busHold → s.pos.hold ≠ none → exec .busHoldIntervalExpiry s = .next
      { s with pos := { s.pos with state := .listening, silence := 0, hold := none } }) ∧
    (s.pal.wait ≠ none → exec .snapshotWaitExpiry s = .next { s with pal := { s.pal with
      outstanding := false, wait := none, install := none
      state := if s.pal.state = .receiving then .resync else s.pal.state
      store := if s.pal.state = .receiving then [] else s.pal.store } }) ∧
    ((s.inView = false ∨ s.pos.state ≠ .listening) → exec .claimDelayExpiry s = .next s) ∧
    ((s.startup.life ≠ .joinPending ∨ s.pos.state ≠ .listening) → exec .foundingSilenceExpiry s = .next s) ∧
    ((s.pos.state ≠ .busHold ∨ s.pos.hold = none) → exec .busHoldIntervalExpiry s = .next s) ∧
    (s.pal.wait = none → exec .snapshotWaitExpiry s = .next s)

/-! ### The frame reference (chapters 5, 6 and 10) -/

/-- R171: the transitions of the frame qualifier and the closing of the spacing window. A falling edge in CONFIRMING is the glitch (log 2);
the time FRAME has stood counts up to its limit (log 24). -/
def Obligations.QualifierTransitions : Prop :=
  ∀ s : State, s.inReset = false →
    (s.frame.phase = .waitLow → exec .frameLowQualified s = .next { s with frame := { s.frame with
      phase := .waitEdge, level := false, stood := max s.frame.stood Config.frameConfirm } }) ∧
    (exec .frameRisingEdge s = .next { s with frame := { s.frame with
      phase := if s.frame.phase = .waitEdge then .confirming else s.frame.phase, level := true, stood := 0 } }) ∧
    (s.frame.phase = .confirming → exec .frameGlitch s = .next { s with frame := { s.frame with
      phase := .waitLow, level := false, stood := 0 } }) ∧
    (exec .frameFallingEdge s = .next { s with frame := { s.frame with
      phase := if s.frame.phase = .confirming then .waitLow else s.frame.phase, level := false, stood := 0 } }) ∧
    (exec .spacingWindowClose s = .next { s with frame := { s.frame with spacing := none } })

/-- R91 to R93, R109, R110, R171 to R173: a qualified edge. With the spacing window open, or at a station outside the view, the qualifier
alone changes. At a member the frame pulse presents where L < R ≤ C, counts the wait, checks the deadline and applies the records due
unless an answer is being sent, the part last heard written first (log 9); PRESENT rises at once unless an application holds it back.
The order of the two units' events is free (log 5). -/
def Obligations.FramePulseAtAMember : Prop :=
  ∀ (s : State) (c : ConfigRecord), s.inReset = false → s.frame.phase = .confirming → s.startup.config = some c →
    let q := { s.frame with phase := .waitLow, stood := max s.frame.stood Config.frameConfirm }
    (s.frame.spacing ≠ none → exec .framePulse s = .next { s with frame := q }) ∧
    (s.frame.spacing = none → s.inView = false → exec .framePulse s = .next { s with frame := { q with spacing := some 0 } }) ∧
    (s.frame.spacing = none → s.inView = true →
      let counted := fun (n : Station) (r : Seq) => inSet n s.mem.view = true ∧ inSet n s.agr.inStep = true ∧
        ∃ rep : Report, s.agr.entry n = some { participant := some true, report := some rep } ∧ rep.r = r
      let presents := s.agr.l < s.agr.r ∧ s.agr.r ≤ s.agr.c
      let l := if presents then s.agr.r else s.agr.l
      let due := s.pal.store.filter (fun r => decide (r.effective ≤ l))
      let applies := s.pal.state = .normal ∧ s.pal.deferral = false ∧ due ≠ []
      ∃ t, exec .framePulse s = .next t ∧
        t = { s with
          frame := { q with spacing := some 0 }, agr := t.agr, pal := t.pal, outputs := t.outputs, cpe := t.cpe, free := t.free } ∧
        t.agr = { s.agr with l := l, wait := t.agr.wait, deadlineReported := t.agr.deadlineReported } ∧
        (s.agr.known = true → (∃ n r, counted n r ∧ s.agr.c < r) → t.agr.wait = min 63 (s.agr.wait + 1)) ∧
        ((s.agr.known = false ∨ ∀ n r, counted n r → r ≤ s.agr.c) → t.agr.wait = 0) ∧
        let missed := c.deadline ≤ t.agr.wait ∧ s.agr.deadlineReported = false ∧ ∃ n r, counted n r ∧ r ≤ s.agr.c
        (missed → t.agr.deadlineReported = true) ∧ (¬ missed → t.agr.deadlineReported = s.agr.deadlineReported) ∧
        t.pal = (if applies then { s.pal with
          bank := s.pal.bank.writeAll s.pal.installing, installing := []
          store := s.pal.store.filter (fun r => !decide (r.effective ≤ l))
          applications := s.pal.applications ++ [{
            writes := due.flatMap (fun r => r.entries.zipIdx.map (fun e => (r.start.toNat + e.2, e.1)))
            present := decide presents }] } else s.pal) ∧
        t.outputs = (if presents ∧ ¬ applies then { s.outputs with present := some 0 } else s.outputs) ∧
        ∃ (es deadline : List EventRecord) (late : StationSet),
          let agreement : List EventRecord :=
            (if presents then [⟨.presented, none, some s.agr.r, none, none, none, false⟩] else []) ++ deadline
          t.cpe = { s.cpe with events := es.foldl pushEvent s.cpe.events } ∧
          (∀ n, inSet n late = true ↔ ∃ r, counted n r ∧ r ≤ s.agr.c) ∧
          (missed → deadline = [⟨.deadlineMissed, none, some s.agr.c, none, none, some late, false⟩]) ∧
          (¬ missed → deadline = []) ∧ agreement.Sublist es ∧
          es.Perm (agreement ++
            (if s.pal.deferral = true ∧ due ≠ [] then [⟨.paletteLate, none, some l, none, none, none, false⟩] else [])))

/-- R173 to R175: the end of the running application, whose PRESENT pulse rises with it where one is due, and after which one that waits
begins (log 22); with none running the row changes nothing (log 2); the end of the PRESENT pulse; and a lookup, which samples the entry at
the index, or, while that entry is being written, the old or the new one whole (log 6), and drives on LD0 to LD29 the entry sampled two
lookups before: each lookup is one rising edge of LCLK (log 8). An entry of a SNAPSHOT part heard and not yet written reads as it was, by
R174 and not by R120's words (log 9). -/
def Obligations.ApplicationPresentAndLookup : Prop :=
  ∀ s : State, s.inReset = false →
    (∀ a rest, s.pal.applications = a :: rest → exec .applicationComplete s = .next { s with
      pal := { s.pal with bank := s.pal.bank.writeAll a.writes, applications := rest }
      outputs := if a.present then { s.outputs with present := some 0 } else s.outputs }) ∧
    (s.pal.applications = [] → exec .applicationComplete s = .next s) ∧
    exec .presentPulseEnd s = .next { s with outputs := { s.outputs with present := none } } ∧
    ∀ index : BitVec 9, ∃ entry : Color,
      exec (.paletteLookup index) s = .next { s with
        outputs := (match s.outputs.lookups with
          | [] => { s.outputs with lookups := [entry] }
          | [one] => { s.outputs with lookups := [one, entry] }
          | first :: second :: rest => { s.outputs with ld := first, lookups := (second :: rest) ++ [entry] })
        free := s.free + 1 } ∧
      (entry = s.pal.bank.read index.toNat ∨ s.pal.installing.head? = some (index.toNat, entry) ∨
        ∃ writes present rest, s.pal.applications = ⟨(index.toNat, entry) :: writes, present⟩ :: rest)

/-! ### Encodings (chapters 2, 9 and 11) -/

/-- R156, R158, R159, section 11.4: the frame of every well-formed control-port command, bit by bit, is judged to be that command, and every
complete frame is the frame of the command it is judged to be: no argument is dropped or misplaced. -/
def Obligations.FramesAndCommandsAgree : Prop :=
  (∀ (i : Instr) (bytes : List Byte), i.wellFormed = true → encodeFrame i = some bytes →
    judgeBits (bitsOfBytes bytes) = .command i ∧ portRow (bitsOfBytes bytes) = i) ∧
  ∀ (bytes : List Byte) (i : Instr), decodeFrame bytes = some i → encodeFrame i = some bytes ∧ i.wellFormed = true

/-- R13 to R15, R18 to R22, R28, R29, R176, R177: the cells a station drives for any packet it can send, sensed unharmed, are judged to be
that packet, heard at its end delimiter, with every field and no error class. -/
def Obligations.PacketsSurviveTheLine : Prop :=
  ∀ k : Packet, k.sendable = true → judge k.cells = .readable k ∧ lineRows k.cells = [.activity, k.row, .receiverRearm none]

/-- R19, R177: the header check corrects any one wrong bit of the 104 and detects any two. -/
def Obligations.HeaderCheckCorrectsOneDetectsTwo : Prop :=
  ∀ data : List Bool, data.length = 96 →
    let check := headerCheck data
    let wrong := fun (j : Nat) (b : Byte) => b ^^^ (1#8 <<< j)
    correctHeader data check = some (data, false) ∧
    (∀ i, i < 96 → correctHeader (invertAt i data) check = some (data, true)) ∧
    (∀ j, j < 8 → correctHeader data (wrong j check) = some (data, true)) ∧
    (∀ i i', i < 96 → i' < 96 → i ≠ i' → correctHeader (invertAt i (invertAt i' data)) check = none) ∧
    (∀ i j, i < 96 → j < 8 → correctHeader (invertAt i data) (wrong j check) = none) ∧
    (∀ j j', j < 8 → j' < 8 → j ≠ j' → correctHeader data (wrong j (wrong j' check)) = none)

/-! ### Invariants -/

/-- The station after a reset satisfies every invariant, with the straps and FRAME as the model sets them (log 3, log 4). -/
def Obligations.ResetSatisfiesTheInvariants : Prop :=
  stationInvariant State.reset = true

/-- R75, R92, R104, R106, R130, R135, R141, R142, R151, R169, R175: L stays at or below R and C, and no queue, count or credit passes its
bound. -/
def Obligations.StepKeepsSequencesAndCapacities : Prop :=
  ∀ s t : State, stationInvariant s = true → step s = .next t → sequencesOrdered t = true ∧ withinCapacity t = true

/-- R79, R102, R106, R107, R112, R117 to R121, R142: the pending store, the owed answer and the answer being sent agree with the palette
state, the bank and the tables keep their canonical forms, and every member of the view, and no other station, has its readiness entry
and its two credit records. -/
def Obligations.StepKeepsStoresAndRecords : Prop :=
  ∀ s t : State, stationInvariant s = true → step s = .next t →
    storeAgrees t = true ∧ answerAgrees t = true ∧ bankCanonical t = true ∧ tablesSorted t = true ∧ recordsMatchView t = true

/-- R3, R4, R16, R32, R33, R42, R45, R57 to R59: the view, the join-pending flag, the configuration record, the receiver, the possession
state and the driver agree with the life-cycle state and with each other. -/
def Obligations.StepKeepsTheUnitsInAgreement : Prop :=
  ∀ s t : State, stationInvariant s = true → step s = .next t →
    viewAgrees t = true ∧ possessionInView t = true ∧ joinPendingAgrees t = true ∧ configAgrees t = true ∧
      receiverAgrees t = true ∧ quietAgrees t = true ∧ driverAgrees t = true

end
end

