-- ==== Sys2Proof/Laws/Sets.lean ====
section
/-! SUPPORT. What the operations on sets of stations contain. -/

namespace Sys2Proof.Machine

theorem inSet_single (m n : Station) : inSet m (single n) = decide (m = n) := by
  revert m n
  decide

theorem inSet_addTo (m n : Station) (v : StationSet) : inSet m (addTo n v) = (inSet m v || decide (m = n)) := by
  simp only [inSet, addTo, BitVec.getLsbD_or]
  rw [show (single n).getLsbD m.val = decide (m = n) from inSet_single m n]

theorem inSet_not {v : StationSet} {m : Station} : (~~~v).getLsbD m.val = !v.getLsbD m.val := by
  simp [m.isLt]

theorem inSet_removeFrom (m n : Station) (v : StationSet) : inSet m (removeFrom n v) = (inSet m v && !decide (m = n)) := by
  simp only [inSet, removeFrom, BitVec.getLsbD_and, inSet_not]
  rw [show (single n).getLsbD m.val = decide (m = n) from inSet_single m n]

theorem inSet_without (m : Station) (v w : StationSet) : inSet m (without v w) = (inSet m v && !inSet m w) := by
  simp only [inSet, without, BitVec.getLsbD_and, inSet_not]

theorem inSet_and (m : Station) (v w : StationSet) : inSet m (v &&& w) = (inSet m v && inSet m w) := by
  simp [inSet]

theorem inSet_zero (m : Station) : inSet m 0 = false := by simp [inSet]

theorem mem_members {m : Station} {v : StationSet} : m ∈ members v ↔ inSet m v = true := by
  simp [members, stations]

/-- Two sets with the same stations are equal. -/
theorem set_ext {v w : StationSet} (h : ∀ n : Station, inSet n v = inSet n w) : v = w := by
  apply BitVec.eq_of_getLsbD_eq
  intro i hi
  exact h ⟨i, hi⟩

theorem inSet_setOf (m : Station) (ns : List Station) : inSet m (setOf ns) = decide (m ∈ ns) := by
  suffices h : ∀ v : StationSet, inSet m (ns.foldl (fun v n => addTo n v) v) = (inSet m v || decide (m ∈ ns)) by
    rw [setOf, h, inSet_zero, Bool.false_or]
  induction ns with
  | nil => intro v; simp
  | cons n ns ih =>
    intro v
    rw [List.foldl_cons, ih, inSet_addTo]
    simp only [List.mem_cons, Bool.decide_or, Bool.or_assoc]

end Sys2Proof.Machine
end

