-- ==== Sys2Proof/Laws/State.lean ====
section
/-! SUPPORT. One lemma per field per update of the state, each true by `rfl`, so that no proof unfolds a record update. -/

namespace Sys2Proof.Machine

section
variable (s : State) (f : Startup → Startup)
@[simp] theorem State.startup_onStartup : (s.onStartup f).startup = f s.startup := rfl
@[simp] theorem State.lif_onStartup : (s.onStartup f).lif = s.lif := rfl
@[simp] theorem State.pos_onStartup : (s.onStartup f).pos = s.pos := rfl
@[simp] theorem State.mem_onStartup : (s.onStartup f).mem = s.mem := rfl
@[simp] theorem State.agr_onStartup : (s.onStartup f).agr = s.agr := rfl
@[simp] theorem State.pal_onStartup : (s.onStartup f).pal = s.pal := rfl
@[simp] theorem State.att_onStartup : (s.onStartup f).att = s.att := rfl
@[simp] theorem State.msg_onStartup : (s.onStartup f).msg = s.msg := rfl
@[simp] theorem State.cpe_onStartup : (s.onStartup f).cpe = s.cpe := rfl
@[simp] theorem State.frame_onStartup : (s.onStartup f).frame = s.frame := rfl
@[simp] theorem State.outputs_onStartup : (s.onStartup f).outputs = s.outputs := rfl
@[simp] theorem State.free_onStartup : (s.onStartup f).free = s.free := rfl
@[simp] theorem State.pending_onStartup : (s.onStartup f).pending = s.pending := rfl
end

section
variable (s : State) (f : Lif → Lif)
@[simp] theorem State.startup_onLif : (s.onLif f).startup = s.startup := rfl
@[simp] theorem State.lif_onLif : (s.onLif f).lif = f s.lif := rfl
@[simp] theorem State.pos_onLif : (s.onLif f).pos = s.pos := rfl
@[simp] theorem State.mem_onLif : (s.onLif f).mem = s.mem := rfl
@[simp] theorem State.agr_onLif : (s.onLif f).agr = s.agr := rfl
@[simp] theorem State.pal_onLif : (s.onLif f).pal = s.pal := rfl
@[simp] theorem State.att_onLif : (s.onLif f).att = s.att := rfl
@[simp] theorem State.msg_onLif : (s.onLif f).msg = s.msg := rfl
@[simp] theorem State.cpe_onLif : (s.onLif f).cpe = s.cpe := rfl
@[simp] theorem State.frame_onLif : (s.onLif f).frame = s.frame := rfl
@[simp] theorem State.outputs_onLif : (s.onLif f).outputs = s.outputs := rfl
@[simp] theorem State.free_onLif : (s.onLif f).free = s.free := rfl
@[simp] theorem State.pending_onLif : (s.onLif f).pending = s.pending := rfl
@[simp] theorem State.inReset_onLif : (s.onLif f).inReset = s.inReset := rfl
@[simp] theorem State.inView_onLif : (s.onLif f).inView = s.inView := rfl
@[simp] theorem State.number_onLif : (s.onLif f).number = s.number := rfl
@[simp] theorem State.cfg_onLif : (s.onLif f).cfg = s.cfg := rfl
end

section
variable (s : State) (f : Pos → Pos)
@[simp] theorem State.startup_onPos : (s.onPos f).startup = s.startup := rfl
@[simp] theorem State.lif_onPos : (s.onPos f).lif = s.lif := rfl
@[simp] theorem State.pos_onPos : (s.onPos f).pos = f s.pos := rfl
@[simp] theorem State.mem_onPos : (s.onPos f).mem = s.mem := rfl
@[simp] theorem State.agr_onPos : (s.onPos f).agr = s.agr := rfl
@[simp] theorem State.pal_onPos : (s.onPos f).pal = s.pal := rfl
@[simp] theorem State.att_onPos : (s.onPos f).att = s.att := rfl
@[simp] theorem State.msg_onPos : (s.onPos f).msg = s.msg := rfl
@[simp] theorem State.cpe_onPos : (s.onPos f).cpe = s.cpe := rfl
@[simp] theorem State.frame_onPos : (s.onPos f).frame = s.frame := rfl
@[simp] theorem State.outputs_onPos : (s.onPos f).outputs = s.outputs := rfl
@[simp] theorem State.free_onPos : (s.onPos f).free = s.free := rfl
@[simp] theorem State.pending_onPos : (s.onPos f).pending = s.pending := rfl
@[simp] theorem State.inReset_onPos : (s.onPos f).inReset = s.inReset := rfl
@[simp] theorem State.inView_onPos : (s.onPos f).inView = s.inView := rfl
@[simp] theorem State.number_onPos : (s.onPos f).number = s.number := rfl
@[simp] theorem State.cfg_onPos : (s.onPos f).cfg = s.cfg := rfl
end

section
variable (s : State) (f : Mem → Mem)
@[simp] theorem State.startup_onMem : (s.onMem f).startup = s.startup := rfl
@[simp] theorem State.lif_onMem : (s.onMem f).lif = s.lif := rfl
@[simp] theorem State.pos_onMem : (s.onMem f).pos = s.pos := rfl
@[simp] theorem State.mem_onMem : (s.onMem f).mem = f s.mem := rfl
@[simp] theorem State.agr_onMem : (s.onMem f).agr = s.agr := rfl
@[simp] theorem State.pal_onMem : (s.onMem f).pal = s.pal := rfl
@[simp] theorem State.att_onMem : (s.onMem f).att = s.att := rfl
@[simp] theorem State.msg_onMem : (s.onMem f).msg = s.msg := rfl
@[simp] theorem State.cpe_onMem : (s.onMem f).cpe = s.cpe := rfl
@[simp] theorem State.frame_onMem : (s.onMem f).frame = s.frame := rfl
@[simp] theorem State.outputs_onMem : (s.onMem f).outputs = s.outputs := rfl
@[simp] theorem State.free_onMem : (s.onMem f).free = s.free := rfl
@[simp] theorem State.pending_onMem : (s.onMem f).pending = s.pending := rfl
@[simp] theorem State.inReset_onMem : (s.onMem f).inReset = s.inReset := rfl
@[simp] theorem State.inView_onMem : (s.onMem f).inView = s.inView := rfl
@[simp] theorem State.number_onMem : (s.onMem f).number = s.number := rfl
@[simp] theorem State.cfg_onMem : (s.onMem f).cfg = s.cfg := rfl
end

section
variable (s : State) (f : Agr → Agr)
@[simp] theorem State.startup_onAgr : (s.onAgr f).startup = s.startup := rfl
@[simp] theorem State.lif_onAgr : (s.onAgr f).lif = s.lif := rfl
@[simp] theorem State.pos_onAgr : (s.onAgr f).pos = s.pos := rfl
@[simp] theorem State.mem_onAgr : (s.onAgr f).mem = s.mem := rfl
@[simp] theorem State.agr_onAgr : (s.onAgr f).agr = f s.agr := rfl
@[simp] theorem State.pal_onAgr : (s.onAgr f).pal = s.pal := rfl
@[simp] theorem State.att_onAgr : (s.onAgr f).att = s.att := rfl
@[simp] theorem State.msg_onAgr : (s.onAgr f).msg = s.msg := rfl
@[simp] theorem State.cpe_onAgr : (s.onAgr f).cpe = s.cpe := rfl
@[simp] theorem State.frame_onAgr : (s.onAgr f).frame = s.frame := rfl
@[simp] theorem State.outputs_onAgr : (s.onAgr f).outputs = s.outputs := rfl
@[simp] theorem State.free_onAgr : (s.onAgr f).free = s.free := rfl
@[simp] theorem State.pending_onAgr : (s.onAgr f).pending = s.pending := rfl
@[simp] theorem State.inReset_onAgr : (s.onAgr f).inReset = s.inReset := rfl
@[simp] theorem State.inView_onAgr : (s.onAgr f).inView = s.inView := rfl
@[simp] theorem State.number_onAgr : (s.onAgr f).number = s.number := rfl
@[simp] theorem State.cfg_onAgr : (s.onAgr f).cfg = s.cfg := rfl
end

section
variable (s : State) (f : Pal → Pal)
@[simp] theorem State.startup_onPal : (s.onPal f).startup = s.startup := rfl
@[simp] theorem State.lif_onPal : (s.onPal f).lif = s.lif := rfl
@[simp] theorem State.pos_onPal : (s.onPal f).pos = s.pos := rfl
@[simp] theorem State.mem_onPal : (s.onPal f).mem = s.mem := rfl
@[simp] theorem State.agr_onPal : (s.onPal f).agr = s.agr := rfl
@[simp] theorem State.pal_onPal : (s.onPal f).pal = f s.pal := rfl
@[simp] theorem State.att_onPal : (s.onPal f).att = s.att := rfl
@[simp] theorem State.msg_onPal : (s.onPal f).msg = s.msg := rfl
@[simp] theorem State.cpe_onPal : (s.onPal f).cpe = s.cpe := rfl
@[simp] theorem State.frame_onPal : (s.onPal f).frame = s.frame := rfl
@[simp] theorem State.outputs_onPal : (s.onPal f).outputs = s.outputs := rfl
@[simp] theorem State.free_onPal : (s.onPal f).free = s.free := rfl
@[simp] theorem State.pending_onPal : (s.onPal f).pending = s.pending := rfl
@[simp] theorem State.inReset_onPal : (s.onPal f).inReset = s.inReset := rfl
@[simp] theorem State.inView_onPal : (s.onPal f).inView = s.inView := rfl
@[simp] theorem State.number_onPal : (s.onPal f).number = s.number := rfl
@[simp] theorem State.cfg_onPal : (s.onPal f).cfg = s.cfg := rfl
end

section
variable (s : State) (f : Att → Att)
@[simp] theorem State.startup_onAtt : (s.onAtt f).startup = s.startup := rfl
@[simp] theorem State.lif_onAtt : (s.onAtt f).lif = s.lif := rfl
@[simp] theorem State.pos_onAtt : (s.onAtt f).pos = s.pos := rfl
@[simp] theorem State.mem_onAtt : (s.onAtt f).mem = s.mem := rfl
@[simp] theorem State.agr_onAtt : (s.onAtt f).agr = s.agr := rfl
@[simp] theorem State.pal_onAtt : (s.onAtt f).pal = s.pal := rfl
@[simp] theorem State.att_onAtt : (s.onAtt f).att = f s.att := rfl
@[simp] theorem State.msg_onAtt : (s.onAtt f).msg = s.msg := rfl
@[simp] theorem State.cpe_onAtt : (s.onAtt f).cpe = s.cpe := rfl
@[simp] theorem State.frame_onAtt : (s.onAtt f).frame = s.frame := rfl
@[simp] theorem State.outputs_onAtt : (s.onAtt f).outputs = s.outputs := rfl
@[simp] theorem State.free_onAtt : (s.onAtt f).free = s.free := rfl
@[simp] theorem State.pending_onAtt : (s.onAtt f).pending = s.pending := rfl
@[simp] theorem State.inReset_onAtt : (s.onAtt f).inReset = s.inReset := rfl
@[simp] theorem State.inView_onAtt : (s.onAtt f).inView = s.inView := rfl
@[simp] theorem State.number_onAtt : (s.onAtt f).number = s.number := rfl
@[simp] theorem State.cfg_onAtt : (s.onAtt f).cfg = s.cfg := rfl
end

section
variable (s : State) (f : Msg → Msg)
@[simp] theorem State.startup_onMsg : (s.onMsg f).startup = s.startup := rfl
@[simp] theorem State.lif_onMsg : (s.onMsg f).lif = s.lif := rfl
@[simp] theorem State.pos_onMsg : (s.onMsg f).pos = s.pos := rfl
@[simp] theorem State.mem_onMsg : (s.onMsg f).mem = s.mem := rfl
@[simp] theorem State.agr_onMsg : (s.onMsg f).agr = s.agr := rfl
@[simp] theorem State.pal_onMsg : (s.onMsg f).pal = s.pal := rfl
@[simp] theorem State.att_onMsg : (s.onMsg f).att = s.att := rfl
@[simp] theorem State.msg_onMsg : (s.onMsg f).msg = f s.msg := rfl
@[simp] theorem State.cpe_onMsg : (s.onMsg f).cpe = s.cpe := rfl
@[simp] theorem State.frame_onMsg : (s.onMsg f).frame = s.frame := rfl
@[simp] theorem State.outputs_onMsg : (s.onMsg f).outputs = s.outputs := rfl
@[simp] theorem State.free_onMsg : (s.onMsg f).free = s.free := rfl
@[simp] theorem State.pending_onMsg : (s.onMsg f).pending = s.pending := rfl
@[simp] theorem State.inReset_onMsg : (s.onMsg f).inReset = s.inReset := rfl
@[simp] theorem State.inView_onMsg : (s.onMsg f).inView = s.inView := rfl
@[simp] theorem State.number_onMsg : (s.onMsg f).number = s.number := rfl
@[simp] theorem State.cfg_onMsg : (s.onMsg f).cfg = s.cfg := rfl
end

section
variable (s : State) (f : Cpe → Cpe)
@[simp] theorem State.startup_onCpe : (s.onCpe f).startup = s.startup := rfl
@[simp] theorem State.lif_onCpe : (s.onCpe f).lif = s.lif := rfl
@[simp] theorem State.pos_onCpe : (s.onCpe f).pos = s.pos := rfl
@[simp] theorem State.mem_onCpe : (s.onCpe f).mem = s.mem := rfl
@[simp] theorem State.agr_onCpe : (s.onCpe f).agr = s.agr := rfl
@[simp] theorem State.pal_onCpe : (s.onCpe f).pal = s.pal := rfl
@[simp] theorem State.att_onCpe : (s.onCpe f).att = s.att := rfl
@[simp] theorem State.msg_onCpe : (s.onCpe f).msg = s.msg := rfl
@[simp] theorem State.cpe_onCpe : (s.onCpe f).cpe = f s.cpe := rfl
@[simp] theorem State.frame_onCpe : (s.onCpe f).frame = s.frame := rfl
@[simp] theorem State.outputs_onCpe : (s.onCpe f).outputs = s.outputs := rfl
@[simp] theorem State.free_onCpe : (s.onCpe f).free = s.free := rfl
@[simp] theorem State.pending_onCpe : (s.onCpe f).pending = s.pending := rfl
@[simp] theorem State.inReset_onCpe : (s.onCpe f).inReset = s.inReset := rfl
@[simp] theorem State.inView_onCpe : (s.onCpe f).inView = s.inView := rfl
@[simp] theorem State.number_onCpe : (s.onCpe f).number = s.number := rfl
@[simp] theorem State.cfg_onCpe : (s.onCpe f).cfg = s.cfg := rfl
end

section
variable (s : State) (f : Qualifier → Qualifier)
@[simp] theorem State.startup_onFrame : (s.onFrame f).startup = s.startup := rfl
@[simp] theorem State.lif_onFrame : (s.onFrame f).lif = s.lif := rfl
@[simp] theorem State.pos_onFrame : (s.onFrame f).pos = s.pos := rfl
@[simp] theorem State.mem_onFrame : (s.onFrame f).mem = s.mem := rfl
@[simp] theorem State.agr_onFrame : (s.onFrame f).agr = s.agr := rfl
@[simp] theorem State.pal_onFrame : (s.onFrame f).pal = s.pal := rfl
@[simp] theorem State.att_onFrame : (s.onFrame f).att = s.att := rfl
@[simp] theorem State.msg_onFrame : (s.onFrame f).msg = s.msg := rfl
@[simp] theorem State.cpe_onFrame : (s.onFrame f).cpe = s.cpe := rfl
@[simp] theorem State.frame_onFrame : (s.onFrame f).frame = f s.frame := rfl
@[simp] theorem State.outputs_onFrame : (s.onFrame f).outputs = s.outputs := rfl
@[simp] theorem State.free_onFrame : (s.onFrame f).free = s.free := rfl
@[simp] theorem State.pending_onFrame : (s.onFrame f).pending = s.pending := rfl
@[simp] theorem State.inReset_onFrame : (s.onFrame f).inReset = s.inReset := rfl
@[simp] theorem State.inView_onFrame : (s.onFrame f).inView = s.inView := rfl
@[simp] theorem State.number_onFrame : (s.onFrame f).number = s.number := rfl
@[simp] theorem State.cfg_onFrame : (s.onFrame f).cfg = s.cfg := rfl
end

section
variable (s : State) (f : Outputs → Outputs)
@[simp] theorem State.startup_onOutputs : (s.onOutputs f).startup = s.startup := rfl
@[simp] theorem State.lif_onOutputs : (s.onOutputs f).lif = s.lif := rfl
@[simp] theorem State.pos_onOutputs : (s.onOutputs f).pos = s.pos := rfl
@[simp] theorem State.mem_onOutputs : (s.onOutputs f).mem = s.mem := rfl
@[simp] theorem State.agr_onOutputs : (s.onOutputs f).agr = s.agr := rfl
@[simp] theorem State.pal_onOutputs : (s.onOutputs f).pal = s.pal := rfl
@[simp] theorem State.att_onOutputs : (s.onOutputs f).att = s.att := rfl
@[simp] theorem State.msg_onOutputs : (s.onOutputs f).msg = s.msg := rfl
@[simp] theorem State.cpe_onOutputs : (s.onOutputs f).cpe = s.cpe := rfl
@[simp] theorem State.frame_onOutputs : (s.onOutputs f).frame = s.frame := rfl
@[simp] theorem State.outputs_onOutputs : (s.onOutputs f).outputs = f s.outputs := rfl
@[simp] theorem State.free_onOutputs : (s.onOutputs f).free = s.free := rfl
@[simp] theorem State.pending_onOutputs : (s.onOutputs f).pending = s.pending := rfl
@[simp] theorem State.inReset_onOutputs : (s.onOutputs f).inReset = s.inReset := rfl
@[simp] theorem State.inView_onOutputs : (s.onOutputs f).inView = s.inView := rfl
@[simp] theorem State.number_onOutputs : (s.onOutputs f).number = s.number := rfl
@[simp] theorem State.cfg_onOutputs : (s.onOutputs f).cfg = s.cfg := rfl
end

section
variable (s : State) (n : Nat)
@[simp] theorem State.startup_useFree : (s.useFree n).startup = s.startup := rfl
@[simp] theorem State.lif_useFree : (s.useFree n).lif = s.lif := rfl
@[simp] theorem State.pos_useFree : (s.useFree n).pos = s.pos := rfl
@[simp] theorem State.mem_useFree : (s.useFree n).mem = s.mem := rfl
@[simp] theorem State.agr_useFree : (s.useFree n).agr = s.agr := rfl
@[simp] theorem State.pal_useFree : (s.useFree n).pal = s.pal := rfl
@[simp] theorem State.att_useFree : (s.useFree n).att = s.att := rfl
@[simp] theorem State.msg_useFree : (s.useFree n).msg = s.msg := rfl
@[simp] theorem State.cpe_useFree : (s.useFree n).cpe = s.cpe := rfl
@[simp] theorem State.frame_useFree : (s.useFree n).frame = s.frame := rfl
@[simp] theorem State.outputs_useFree : (s.useFree n).outputs = s.outputs := rfl
@[simp] theorem State.free_useFree : (s.useFree n).free = s.free + n := rfl
@[simp] theorem State.pending_useFree : (s.useFree n).pending = s.pending := rfl
@[simp] theorem State.inReset_useFree : (s.useFree n).inReset = s.inReset := rfl
@[simp] theorem State.inView_useFree : (s.useFree n).inView = s.inView := rfl
@[simp] theorem State.number_useFree : (s.useFree n).number = s.number := rfl
@[simp] theorem State.cfg_useFree : (s.useFree n).cfg = s.cfg := rfl
end

section
variable (s : State) (l : Life)
@[simp] theorem State.startup_setLife : (s.setLife l).startup = { s.startup with life := l } := rfl
@[simp] theorem State.lif_setLife : (s.setLife l).lif = s.lif := rfl
@[simp] theorem State.pos_setLife : (s.setLife l).pos = s.pos := rfl
@[simp] theorem State.mem_setLife : (s.setLife l).mem = s.mem := rfl
@[simp] theorem State.agr_setLife : (s.setLife l).agr = s.agr := rfl
@[simp] theorem State.pal_setLife : (s.setLife l).pal = s.pal := rfl
@[simp] theorem State.att_setLife : (s.setLife l).att = s.att := rfl
@[simp] theorem State.msg_setLife : (s.setLife l).msg = s.msg := rfl
@[simp] theorem State.cpe_setLife : (s.setLife l).cpe = s.cpe := rfl
@[simp] theorem State.frame_setLife : (s.setLife l).frame = s.frame := rfl
@[simp] theorem State.outputs_setLife : (s.setLife l).outputs = s.outputs := rfl
@[simp] theorem State.free_setLife : (s.setLife l).free = s.free := rfl
@[simp] theorem State.pending_setLife : (s.setLife l).pending = s.pending := rfl
end

section
variable (s : State) (p : Possession)
@[simp] theorem State.startup_setPossession : (s.setPossession p).startup = s.startup := rfl
@[simp] theorem State.lif_setPossession : (s.setPossession p).lif = s.lif := rfl
@[simp] theorem State.pos_setPossession : (s.setPossession p).pos = { s.pos with state := p } := rfl
@[simp] theorem State.mem_setPossession : (s.setPossession p).mem = s.mem := rfl
@[simp] theorem State.agr_setPossession : (s.setPossession p).agr = s.agr := rfl
@[simp] theorem State.pal_setPossession : (s.setPossession p).pal = s.pal := rfl
@[simp] theorem State.att_setPossession : (s.setPossession p).att = s.att := rfl
@[simp] theorem State.msg_setPossession : (s.setPossession p).msg = s.msg := rfl
@[simp] theorem State.cpe_setPossession : (s.setPossession p).cpe = s.cpe := rfl
@[simp] theorem State.frame_setPossession : (s.setPossession p).frame = s.frame := rfl
@[simp] theorem State.outputs_setPossession : (s.setPossession p).outputs = s.outputs := rfl
@[simp] theorem State.free_setPossession : (s.setPossession p).free = s.free := rfl
@[simp] theorem State.pending_setPossession : (s.setPossession p).pending = s.pending := rfl
end

section
variable (s : State) (e : EventRecord)
@[simp] theorem State.startup_raise : (s.raise e).startup = s.startup := rfl
@[simp] theorem State.lif_raise : (s.raise e).lif = s.lif := rfl
@[simp] theorem State.pos_raise : (s.raise e).pos = s.pos := rfl
@[simp] theorem State.mem_raise : (s.raise e).mem = s.mem := rfl
@[simp] theorem State.agr_raise : (s.raise e).agr = s.agr := rfl
@[simp] theorem State.pal_raise : (s.raise e).pal = s.pal := rfl
@[simp] theorem State.att_raise : (s.raise e).att = s.att := rfl
@[simp] theorem State.msg_raise : (s.raise e).msg = s.msg := rfl
@[simp] theorem State.cpe_raise : (s.raise e).cpe = { s.cpe with events := pushEvent s.cpe.events e } := rfl
@[simp] theorem State.frame_raise : (s.raise e).frame = s.frame := rfl
@[simp] theorem State.outputs_raise : (s.raise e).outputs = s.outputs := rfl
@[simp] theorem State.free_raise : (s.raise e).free = s.free := rfl
@[simp] theorem State.pending_raise : (s.raise e).pending = s.pending := rfl
end

end Sys2Proof.Machine
end

