-- ==== Sys2Proof/Laws/Ops.lean ====
section
/-! SUPPORT. What the shared operations do: tables, the live bank and the event queue. -/

namespace Sys2Proof.Machine

/-! ### Tables -/

variable {α : Type}

theorem Table.get?_set (t : Table α) (k j : Nat) (a : α) :
    Table.get? (Table.set t k a) j = if k = j then some a else Table.get? t j := by
  induction t with
  | nil => simp [Table.set, Table.get?]
  | cons e t ih =>
    obtain ⟨i, b⟩ := e
    simp only [Table.set]
    split
    · simp only [Table.get?]
    · split
      · rename_i h
        subst h
        simp only [Table.get?]
        split <;> rfl
      · simp only [Table.get?, ih]
        by_cases hij : i = j <;> by_cases hkj : k = j <;> simp_all

theorem Table.get?_filter (t : Table α) (p : Nat → Bool) (j : Nat) :
    Table.get? (t.filter (fun e => p e.1)) j = if p j then Table.get? t j else none := by
  induction t with
  | nil => simp [Table.get?]
  | cons e t ih =>
    obtain ⟨i, b⟩ := e
    by_cases hp : p i = true <;> by_cases hij : i = j
    · subst hij; simp [hp, Table.get?]
    · simp [hp, Table.get?, hij, ih]
    · subst hij; simp [hp, ih]
    · simp [hp, Table.get?, hij, ih]

theorem Table.get?_erase (t : Table α) (k j : Nat) :
    Table.get? (Table.erase t k) j = if k = j then none else Table.get? t j := by
  have h := Table.get?_filter t (fun i => decide (i ≠ k)) j
  simp only [Table.erase]
  rw [h]
  by_cases hkj : k = j
  · subst hkj; simp
  · simp [hkj, Ne.symm hkj]

theorem Table.get?_dropSet (t : Table α) (v : StationSet) (j : Nat) :
    Table.get? (Table.dropSet t v) j = if v.getLsbD j then none else Table.get? t j := by
  have h := Table.get?_filter t (fun i => !v.getLsbD i) j
  simp only [Table.dropSet]
  rw [h]
  cases v.getLsbD j <;> simp

theorem Table.get?_mapAll (t : Table α) (f : Nat → α → α) (j : Nat) :
    Table.get? (Table.mapAll t f) j = (Table.get? t j).map (f j) := by
  induction t with
  | nil => simp [Table.mapAll, Table.get?]
  | cons e t ih =>
    obtain ⟨i, b⟩ := e
    simp only [Table.mapAll, List.map_cons, Table.get?] at ih ⊢
    by_cases hij : i = j
    · subst hij; simp
    · simp only [if_neg hij]; exact ih

theorem Table.get?_map_stations (ns : List Station) (a : α) (n : Station) :
    Table.get? (ns.map (fun m => (m.val, a))) n.val = if n ∈ ns then some a else none := by
  induction ns with
  | nil => simp [Table.get?]
  | cons m ns ih =>
    simp only [List.map_cons, Table.get?, ih, List.mem_cons]
    by_cases h : m = n
    · subst h; simp
    · have h' : ¬ (m.val = n.val) := fun e => h (Fin.ext e)
      simp [h', Ne.symm h]

theorem Table.get?_ofSet (v : StationSet) (a : α) (n : Station) :
    Table.get? (Table.ofSet v a) n.val = if inSet n v then some a else none := by
  rw [Table.ofSet, Table.get?_map_stations]
  simp only [mem_members]

/-- Rising order said of pairs, for proofs. -/
theorem Table.sorted_iff (t : Table α) : Table.sorted t = true ↔ t.Pairwise (fun a b => a.1 < b.1) := by
  induction t with
  | nil => simp [Table.sorted]
  | cons e t ih =>
    obtain ⟨i, b⟩ := e
    cases t with
    | nil => simp [Table.sorted]
    | cons e' t =>
      obtain ⟨j, c⟩ := e'
      simp only [Table.sorted, Bool.and_eq_true, decide_eq_true_eq, ih]
      rw [List.pairwise_cons (a := (i, b))]
      constructor
      · rintro ⟨hij, hp⟩
        refine ⟨?_, hp⟩
        intro x hx
        rcases List.mem_cons.1 hx with h | h
        · subst h; exact hij
        · exact Nat.lt_trans hij ((List.pairwise_cons.1 hp).1 x h)
      · rintro ⟨h1, hp⟩
        exact ⟨h1 _ (List.mem_cons_self ..), hp⟩

theorem Table.mem_set {t : Table α} {k : Nat} {a : α} {x : Nat × α} (h : x ∈ Table.set t k a) : x = (k, a) ∨ x ∈ t := by
  induction t with
  | nil => simp [Table.set] at h; exact Or.inl h
  | cons e t ih =>
    obtain ⟨i, b⟩ := e
    simp only [Table.set] at h
    split at h
    · simpa using h
    · split at h
      · rcases List.mem_cons.1 h with h | h
        · exact Or.inl h
        · exact Or.inr (List.mem_cons_of_mem _ h)
      · rcases List.mem_cons.1 h with h | h
        · exact Or.inr (h ▸ List.mem_cons_self ..)
        · rcases ih h with h | h
          · exact Or.inl h
          · exact Or.inr (List.mem_cons_of_mem _ h)

theorem Table.sorted_set {t : Table α} (k : Nat) (a : α) (h : Table.sorted t = true) : Table.sorted (Table.set t k a) = true := by
  rw [Table.sorted_iff] at h ⊢
  induction t with
  | nil => simp [Table.set]
  | cons e t ih =>
    obtain ⟨i, b⟩ := e
    have ht := List.pairwise_cons.1 h
    simp only [Table.set]
    split
    · rename_i hk
      refine List.pairwise_cons.2 ⟨?_, h⟩
      intro x hx
      rcases List.mem_cons.1 hx with hx | hx
      · subst hx; exact hk
      · exact Nat.lt_trans hk (ht.1 x hx)
    · split
      · rename_i hk
        subst hk
        exact List.pairwise_cons.2 ⟨ht.1, ht.2⟩
      · refine List.pairwise_cons.2 ⟨?_, ih ht.2⟩
        intro x hx
        rcases Table.mem_set hx with hx | hx
        · subst hx
          simp only
          omega
        · exact ht.1 x hx

theorem Table.sorted_filter {t : Table α} (p : Nat × α → Bool) (h : Table.sorted t = true) :
    Table.sorted (t.filter p) = true := by
  rw [Table.sorted_iff] at h ⊢
  exact h.filter p

theorem Table.sorted_erase {t : Table α} (k : Nat) (h : Table.sorted t = true) : Table.sorted (Table.erase t k) = true :=
  Table.sorted_filter _ h

theorem Table.sorted_dropSet {t : Table α} (v : StationSet) (h : Table.sorted t = true) :
    Table.sorted (Table.dropSet t v) = true :=
  Table.sorted_filter _ h

theorem Table.sorted_mapAll {t : Table α} (f : Nat → α → α) (h : Table.sorted t = true) :
    Table.sorted (Table.mapAll t f) = true := by
  rw [Table.sorted_iff] at h ⊢
  exact List.Pairwise.map _ (fun _ _ hab => hab) h

theorem Table.sorted_ofSet (v : StationSet) (a : α) : Table.sorted (Table.ofSet v a) = true := by
  rw [Table.sorted_iff]
  refine List.Pairwise.map (R := fun a b : Station => a < b) _ (fun _ _ hab => hab) ?_
  exact List.Pairwise.filter _ (List.pairwise_lt_finRange 32)

/-! ### The live bank -/

theorem Memory.read_write_self (m : Memory) (i : Nat) (c : Color) : (m.write i c).read i = c := by
  simp only [Memory.write, Memory.read]
  split
  · rename_i h; rw [Table.get?_erase, if_pos rfl, h]; rfl
  · rw [Table.get?_set, if_pos rfl]; rfl

theorem Memory.read_write_other (m : Memory) {i j : Nat} (c : Color) (h : i ≠ j) : (m.write i c).read j = m.read j := by
  simp only [Memory.write, Memory.read]
  split
  · rw [Table.get?_erase, if_neg h]
  · rw [Table.get?_set, if_neg h]

theorem Memory.wf_write {m : Memory} {i : Nat} (c : Color) (hi : i < bankSize) (h : m.wf = true) : (m.write i c).wf = true := by
  simp only [Memory.wf, Bool.and_eq_true, List.all_eq_true] at h ⊢
  simp only [Memory.write]
  split
  · exact ⟨Table.sorted_erase i h.1, fun x hx => h.2 x (List.mem_filter.1 hx).1⟩
  · rename_i hc
    refine ⟨Table.sorted_set i c h.1, fun x hx => ?_⟩
    rcases Table.mem_set hx with hx | hx
    · subst hx
      simp only [decide_eq_true_eq]
      exact ⟨hi, hc⟩
    · exact h.2 x hx

theorem Memory.wf_writeAll {m : Memory} (ws : List (Nat × Color)) (h : m.wf = true) : (m.writeAll ws).wf = true := by
  induction ws generalizing m with
  | nil => exact h
  | cons w ws ih =>
    obtain ⟨i, c⟩ := w
    simp only [Memory.writeAll]
    apply ih
    split
    · rename_i hi; exact Memory.wf_write c hi h
    · exact h

theorem Memory.writeAll_append (m : Memory) (xs ys : List (Nat × Color)) : m.writeAll (xs ++ ys) = (m.writeAll xs).writeAll ys := by
  induction xs generalizing m with
  | nil => rfl
  | cons w xs ih => obtain ⟨i, c⟩ := w; simp only [List.cons_append, Memory.writeAll, ih]

/-- An index that no write of a list names reads as before. -/
theorem Memory.read_writeAll_other (m : Memory) (ws : List (Nat × Color)) (j : Nat) (h : ∀ w ∈ ws, w.1 ≠ j) :
    (m.writeAll ws).read j = m.read j := by
  induction ws generalizing m with
  | nil => rfl
  | cons w ws ih =>
    obtain ⟨i, c⟩ := w
    simp only [Memory.writeAll]
    rw [ih _ (fun w hw => h w (List.mem_cons_of_mem _ hw))]
    split
    · exact Memory.read_write_other m c (h (i, c) (List.mem_cons_self ..))
    · rfl

/-! ### The event queue -/

theorem markNewest_length (q : List EventRecord) : (markNewest q).length = q.length := by
  induction q with
  | nil => rfl
  | cons e q ih =>
    cases q with
    | nil => rfl
    | cons e' q => simp only [markNewest, List.length_cons] at ih ⊢; rw [ih]

theorem pushEvent_room {q : List EventRecord} (e : EventRecord) (h : q.length < eventCapacity) :
    pushEvent q e = q ++ [{ e with lossFollows := false }] := if_pos h

theorem pushEvent_full {q : List EventRecord} (e : EventRecord) (h : eventCapacity ≤ q.length) :
    pushEvent q e = markNewest q := if_neg (Nat.not_lt.2 h)

theorem pushEvent_length {q : List EventRecord} (e : EventRecord) (h : q.length ≤ eventCapacity) :
    (pushEvent q e).length ≤ eventCapacity := by
  simp only [pushEvent]
  split
  · simp only [List.length_append, List.length_singleton]; omega
  · rw [markNewest_length]; exact h

/-- Raising events changes the event queue alone. -/
theorem State.raiseAll_eq (s : State) (es : List EventRecord) :
    s.raiseAll es = s.onCpe (fun u => { u with events := es.foldl pushEvent u.events }) := by
  induction es generalizing s with
  | nil => rfl
  | cons e es ih => rw [State.raiseAll, List.foldl_cons, ← State.raiseAll, ih]; rfl

theorem State.raiseAll_nil (s : State) : s.raiseAll [] = s := rfl

/-- The free values that raising the events of two units takes. -/
theorem State.raiseBoth_eq (s : State) (xs ys : List EventRecord) :
    ∃ (es : List EventRecord) (n : Nat), s.raiseBoth xs ys = (s.onCpe (fun u => { u with events := es.foldl pushEvent u.events })).useFree n :=
  ⟨mergeEvents Config.eventOrder (xs.length + ys.length) s.free xs ys,
    (if xs.isEmpty || ys.isEmpty then 0 else xs.length + ys.length), by rw [State.raiseBoth, State.raiseAll_eq]⟩

theorem mergeEvents_nil_right (choice : Nat → Bool) (fuel k : Nat) (xs : List EventRecord) :
    mergeEvents choice fuel k xs [] = xs := by
  cases fuel with
  | zero => simp [mergeEvents]
  | succ n => cases xs <;> simp [mergeEvents]

theorem mergeEvents_nil_left (choice : Nat → Bool) (fuel k : Nat) (ys : List EventRecord) :
    mergeEvents choice fuel k [] ys = ys := by
  cases fuel <;> simp [mergeEvents]

/-- With events of one unit only there is no choice to make. -/
theorem State.raiseBoth_right_nil (s : State) (xs : List EventRecord) : s.raiseBoth xs [] = s.raiseAll xs := by
  simp [State.raiseBoth, mergeEvents_nil_right, State.useFree]

theorem State.raiseBoth_left_nil (s : State) (ys : List EventRecord) : s.raiseBoth [] ys = s.raiseAll ys := by
  simp [State.raiseBoth, mergeEvents_nil_left, State.useFree]

/-- Whatever order the free values pick, the events raised are those of the two units, each unit's in its own order. -/
theorem mergeEvents_perm (choice : Nat → Bool) (fuel k : Nat) (xs ys : List EventRecord) :
    (mergeEvents choice fuel k xs ys).Perm (xs ++ ys) := by
  induction fuel generalizing k xs ys with
  | zero => simp [mergeEvents]
  | succ n ih =>
    cases xs with
    | nil => cases ys <;> simp [mergeEvents]
    | cons x xs =>
      cases ys with
      | nil => simp [mergeEvents]
      | cons y ys =>
        simp only [mergeEvents]
        split
        · exact (ih (k + 1) xs (y :: ys)).cons x
        · exact ((ih (k + 1) (x :: xs) ys).cons y).trans List.perm_middle.symm

theorem mergeEvents_sublist (choice : Nat → Bool) (fuel k : Nat) (xs ys : List EventRecord) :
    xs.Sublist (mergeEvents choice fuel k xs ys) ∧ ys.Sublist (mergeEvents choice fuel k xs ys) := by
  induction fuel generalizing k xs ys with
  | zero => simp [mergeEvents]
  | succ n ih =>
    cases xs with
    | nil => cases ys <;> simp [mergeEvents]
    | cons x xs =>
      cases ys with
      | nil => simp [mergeEvents]
      | cons y ys =>
        simp only [mergeEvents]
        split
        · exact ⟨(ih (k + 1) xs (y :: ys)).1.cons_cons x, (ih (k + 1) xs (y :: ys)).2.cons x⟩
        · exact ⟨(ih (k + 1) (x :: xs) ys).1.cons y, (ih (k + 1) (x :: xs) ys).2.cons_cons y⟩

/-! ### The number of the strap pins, the timers -/

theorem Timer.tick_none (limit : Nat) : Timer.tick limit none = none := rfl

theorem Timer.tick_le (limit : Nat) (t : Timer) : ∀ n, Timer.tick limit t = some n → n ≤ limit := by
  intro n h
  cases t with
  | none => simp [Timer.tick] at h
  | some k => simp only [Timer.tick, Option.map_some, Option.some.injEq] at h; omega

end Sys2Proof.Machine
end

