-- ==== Sys2Proof/Laws/Hearing.lean ====
section
/-! SUPPORT. What hearing a packet does before and around the units' own effects, said once. -/

namespace Sys2Proof.Machine

/-- A packet that cannot be heard changes nothing. -/
theorem hear_deaf (h : Heard) (act : State → State) (s : State) (hc : canHear s = false) : hear h act s = s := by
  simp [hear, hc]

/-- A packet heard is handed to the units of a station whose LIF and POS have taken notice of it. -/
theorem hear_heard (h : Heard) (act : State → State) (s : State) (hc : canHear s = true) :
    hear h act s = unitsHear h act (s.onLif (fun l => l.frameEnds (classesOf h))) := by
  simp [hear, hc]

/-- In HALTED the LIF alone takes notice. -/
theorem unitsHear_halted (h : Heard) (act : State → State) (s : State) (hl : s.startup.life = .halted) :
    unitsHear h act s = notePacket (classesOf h) s := by
  simp [unitsHear, notePacket, hl]

theorem unitsHear_readable (k : Packet) (act : State → State) (s : State) (hl : s.startup.life ≠ .halted) :
    unitsHear (.readable k) act s = hearReadable k act (notePacket (classesOf (.readable k)) s) := by
  simp [unitsHear, notePacket, hl]

theorem unitsHear_unreadable (u : Unreadable) (act : State → State) (s : State) (hl : s.startup.life ≠ .halted) :
    unitsHear (.unreadable u) act s = hearUnreadable (notePacket (.unreadable u) s) := by
  simp [unitsHear, notePacket, hl, classesOf]

/-- Outside HANDING OVER with a running window, taking notice of a packet zeroes the silence timer and no more of the POS. -/
theorem endHandover_other (p : Pos) (h : p.state ≠ .handingOver ∨ p.turnaround.isNone) : p.endHandover = p := by
  rcases h with h | h
  · simp [Pos.endHandover, h]
  · simp [Pos.endHandover, Option.isNone_iff_eq_none.mp h]

/-- Outside AWAITING REPLY a packet goes straight to the units. -/
theorem throughSlot_other (k : Packet) (act : State → State) (s : State) (h : s.pos.state ≠ .awaitingReply) :
    throughSlot k act s = act s := by
  unfold throughSlot
  split
  · rw [if_neg h]
  · rfl

/-- A foreign readable packet outside AWAITING REPLY: the awaited answer, then the units. -/
theorem hearReadable_foreign (k : Packet) (act : State → State) (s : State) (hs : k.head.source ≠ s.number)
    (hp : s.pos.state ≠ .awaitingReply) :
    hearReadable k act s = act (if s.inView then s.onPal (fun p => p.breakAnswer s.number k) else s) := by
  rw [hearReadable, if_neg hs, throughSlot_other]
  split <;> simpa using hp

/-- In NORMAL no packet breaks an answer. -/
theorem breakAnswer_normal (p : Pal) (own : Station) (k : Packet) (h : p.state = .normal) : p.breakAnswer own k = p := by
  simp [Pal.breakAnswer, h]

/-- Taking notice of a readable packet with no turnaround window running, and the awaited answer it may break, is `heardBy`. -/
theorem notePacket_heardBy (k : Packet) (s : State) (hh : s.pos.state ≠ .handingOver ∨ s.pos.turnaround.isNone) :
    (let t := notePacket (classesOf (.readable k)) (s.onLif (fun l => l.frameEnds (classesOf (.readable k))))
     if t.inView then t.onPal (fun p => p.breakAnswer t.number k) else t) = heardBy k s := by
  have he : (s.onLif (fun l => l.frameEnds (classesOf (.readable k)))).pos.endHandover = s.pos := endHandover_other _ (by simpa using hh)
  simp only [notePacket, heardBy, State.inView_onPos, State.inView_onLif, State.number_onPos, State.number_onLif]
  simp only [State.onPos, State.onLif, State.onPal] at he ⊢
  rw [he]
  rfl

/-- A foreign readable packet that meets no reply slot and no running turnaround window goes to the units: `heardBy` stands for what
hearing itself changes. -/
theorem hear_taken (k : Packet) (act : State → State) (s : State) {h : Head} (ht : takesPacket h s = true)
    (hk : k.head = h := by rfl) : hear (.readable k) act s = act (heardBy k s) := by
  subst hk
  simp only [takesPacket, Bool.and_eq_true, bne_iff_ne, ne_eq, Bool.or_eq_true] at ht
  obtain ⟨⟨⟨⟨hc, hl⟩, ha⟩, hh⟩, hs⟩ := ht
  have he : ∀ l : Lif → Lif, (s.onLif l).pos.endHandover = s.pos := fun l => endHandover_other _ (by simpa using hh)
  rw [hear_heard _ _ _ hc, unitsHear_readable _ _ _ (by simpa using hl), hearReadable_foreign]
  · exact congrArg act (notePacket_heardBy k s hh)
  · simpa [notePacket] using hs
  · simpa [notePacket, endHandover_other _ hh] using ha

/-- R46: while the turnaround window runs a packet, whose activity came first, is heard in LISTENING. -/
theorem hear_inWindow (h : Heard) (act : State → State) (s : State) (hc : canHear s = true) (hp : s.pos.state = .handingOver)
    (ht : s.pos.turnaround.isSome) :
    hear h act s = hear h act (s.onPos (fun p => { p.discard with state := .listening, silence := 0 })) := by
  rw [hear_heard _ _ _ hc, hear_heard _ _ (s.onPos _) hc]
  simp [unitsHear, notePacket, State.onPos, State.onLif, Pos.endHandover, hp, ht, Pos.discard]

/-- In AWAITING REPLY a foreign readable packet is the reply of the slot, or a possession conflict. -/
theorem hear_inSlot (k : Packet) (act : State → State) (s : State) (sl : Slot) (hc : canHear s = true) (hl : s.startup.life ≠ .halted)
    (hp : s.pos.state = .awaitingReply) (hs : s.pos.slot = some sl) (hn : k.head.source ≠ s.number) :
    hear (.readable k) act s = match replyIn s.number sl k with
      | some r => resumePossession (slotOutcome sl r (heardBy k s))
      | none => act (conflict sl (heardBy k s)) := by
  rw [hear_heard _ _ _ hc, unitsHear_readable _ _ _ (by simpa using hl), hearReadable, if_neg (by simpa [notePacket] using hn)]
  rw [notePacket_heardBy k s (.inl (by simp [hp]))]
  have h1 : (heardBy k s).pos.slot = some sl := by simp only [heardBy]; split <;> simpa using hs
  have h2 : (heardBy k s).pos.state = .awaitingReply := by simp only [heardBy]; split <;> simpa using hp
  have h3 : (heardBy k s).number = s.number := by simp only [heardBy]; split <;> rfl
  rw [throughSlot, h1]
  simp only [h2, if_true, h3]
  all_goals (split <;> rename_i hr <;> simp [hr])

/-- A LISTENING station takes every foreign packet it hears. -/
theorem takesPacket_of_listensTo (h : Head) (s : State) (ht : listensTo h s = true) : takesPacket h s = true := by
  simp only [listensTo, takesPacket, Bool.and_eq_true, Bool.or_eq_true, beq_iff_eq] at ht ⊢
  exact ⟨⟨⟨ht.1.1, by simp [ht.1.2]⟩, .inl (by simp [ht.1.2])⟩, ht.2⟩

end Sys2Proof.Machine
end

