-- ==== Sys2Proof/Laws/Membership.lean ====
section
/-! SUPPORT. What members removed, a membership ended, the outcome of a reply slot, a STATUS packet and the report of the station's own
state do, in the terms of Safety.lean. -/

namespace Sys2Proof.Machine

/-- The events of two units raised at one moment join the queue as a merge of them; nothing else but the free values moves. -/
theorem State.raiseBoth_isMerge (s : State) (xs ys : List EventRecord) : ∃ (es : List EventRecord) (n : Nat),
    s.raiseBoth xs ys = { s with cpe := { s.cpe with events := es.foldl pushEvent s.cpe.events }, free := n } ∧ IsMerge xs ys es := by
  refine ⟨mergeEvents Config.eventOrder (xs.length + ys.length) s.free xs ys,
    s.free + (if xs.isEmpty || ys.isEmpty then 0 else xs.length + ys.length), ?_, ?_⟩
  · rw [State.raiseBoth, State.raiseAll_eq]; rfl
  · exact ⟨(mergeEvents_sublist ..).1, (mergeEvents_sublist ..).2, mergeEvents_perm ..⟩

theorem Pal.removeMembers_eq (gone : StationSet) (p : Pal) : p.removeMembers gone = palWithout gone p := by
  have hd : ({ p with credits := Table.dropSet p.credits gone }.dropOwed (fun n => inSet n gone)) = { p with
      credits := p.credits.filter (fun e => !gone.getLsbD e.1)
      owed := if p.answer = none then p.owed.filter (fun o => !inSet o.requester gone) else p.owed } := by
    cases ha : p.answer <;> simp [Pal.dropOwed, Table.dropSet]
  rw [Pal.removeMembers, palWithout]
  simp only [hd]
  cases p.outstanding <;> cases p.candidate <;> simp [Pal.endRequest]

/-- Members removed: every unit loses what was theirs, and the events of the ATT and the MSG are raised, in either order. -/
theorem membersGone_eq (gone : StationSet) (s : State) : ∃ (es : List EventRecord) (n : Nat),
    membersGone gone s = { s with
      agr := (unitsWithout gone s).1, pal := (unitsWithout gone s).2.1, att := (unitsWithout gone s).2.2.1
      msg := (unitsWithout gone s).2.2.2
      cpe := { s.cpe with events := es.foldl pushEvent s.cpe.events }, free := n } ∧
    IsMerge (requestsLost gone s.att) (messagesLost gone s.msg) es := by
  have ha : s.att.removeMembers gone = ((unitsWithout gone s).2.2.1, requestsLost gone s.att) := by
    simp [Att.removeMembers, Att.failAll, unitsWithout, requestsLost, Request.failedEvent]
  have hg : s.msg.removeMembers gone = ((unitsWithout gone s).2.2.2, messagesLost gone s.msg) := by
    have hf : (fun m : OutMessage => m.directedTo gone) = isFor gone := by funext m; rfl
    have hn : (fun m : OutMessage => !m.directedTo gone) = fun m => !isFor gone m := by funext m; rfl
    simp only [Msg.removeMembers, hf, hn]
    rfl
  obtain ⟨es, n, he, hm⟩ := State.raiseBoth_isMerge
    ((((s.onAgr (fun x => x.removeMembers gone)).onPal (fun x => x.removeMembers gone)).onAtt
      (fun _ => (unitsWithout gone s).2.2.1)).onMsg (fun _ => (unitsWithout gone s).2.2.2))
    (requestsLost gone s.att) (messagesLost gone s.msg)
  refine ⟨es, n, ?_, hm⟩
  simp only [membersGone, ha, hg]
  rw [he]
  simp only [State.onAgr, State.onPal, State.onAtt, State.onMsg, Pal.removeMembers_eq]
  rfl

/-- Leaving the view: every unit's leave-view actions and the events of the failures (R73, R133, R153). -/
theorem leaveUnits_eq (s : State) : leaveUnits s = { s with
    mem := { s.mem with view := 0 }
    agr := (unitsLeft s).1, pal := (unitsLeft s).2.1, att := (unitsLeft s).2.2.1, msg := (unitsLeft s).2.2.2
    cpe := { s.cpe with events := (leaveEvents s).foldl pushEvent s.cpe.events } } := by
  have ha : s.att.leave = ((unitsLeft s).2.2.1, (s.att.requests.filter Request.unfinished).map (fun r => r.failedEvent .left)) := by
    simp [Att.leave, Att.failAll, unitsLeft, requestLeft]
  have he : leaveEvents s = (s.att.requests.filter Request.unfinished).map (fun r => r.failedEvent .left) ++
      (s.msg.held.toList ++ s.msg.retry.toList ++ s.msg.priority ++ s.msg.bulk).map (fun m =>
        m.event .messageFailed (some .left)) := rfl
  simp only [leaveUnits, ha, he, State.raiseAll_eq, List.foldl_append]
  rfl

/-- The outcome of a message's slot: the message, held or retried, meets its outcome, and QUEUE FULL zeroes its sender's record
(R142, R145). -/
theorem slotOutcome_message (sl : Slot) (r : SlotResult) (s : State) (m : OutMessage) (ho : sl.owner = .message)
    (hm : s.msg.held = some m ∨ s.msg.held = none ∧ s.msg.retry = some m) : slotOutcome sl r s = { s with
      pos := { s.pos with slot := none }
      msg := { s.msg with
        held := none, retry := (m.outcome r.corrected r.result).1
        credits := if r.result = some .queueFull then setCredit s.msg.credits sl.target 0 else s.msg.credits }
      cpe := { s.cpe with events := (m.outcome r.corrected r.result).2.foldl pushEvent s.cpe.events } } := by
  simp only [slotOutcome, ho, State.raiseAll_eq]
  rcases hm with hm | ⟨hm, hr⟩ <;> split <;> simp_all [Msg.slotEnds, State.onMsg, State.onPos, State.onCpe]

/-- The outcome of a request's slot: its entry meets its outcome, the header-corrected flag copied first (R131), and QUEUE FULL zeroes
the message credit of its sender (log 25). -/
theorem slotOutcome_request (sl : Slot) (r : SlotResult) (s : State) (tag : Byte) (q : Request) (ho : sl.owner = .request tag)
    (hq : s.att.find tag = some q) :
    let asked := if r.result.isSome then { q with corrected := r.corrected } else q
    slotOutcome sl r s = { s with
      pos := { s.pos with slot := none }
      att := { s.att with requests := s.att.requests.map (fun o => if o.tag = tag then (asked.outcome r.result).1 else o) }
      msg := { s.msg with
        credits := if r.result = some .queueFull then setCredit s.msg.credits sl.target 0 else s.msg.credits }
      cpe := { s.cpe with events := (asked.outcome r.result).2.foldl pushEvent s.cpe.events } } := by
  simp only [slotOutcome, ho, State.raiseAll_eq]
  split <;> simp_all [Att.slotEnds, Att.update, State.onMsg, State.onAtt, State.onPos, State.onCpe]

/-- The STATUS packet of the scheduler carries the state as it stands. -/
theorem statusBody_eq (c : ConfigRecord) (s : State) (hc : s.startup.config = some c) : statusBody s = reportOf c s := by
  simp [statusBody, reportOf, State.cfg, hc, Pal.advertised, Msg.advertised, storeCapacity, inboundCapacity]

theorem Pal.hearStatus_eq (src : Station) (b : StatusBody) (p : Pal) : p.hearStatus src b = palTakesStatus src b p := by
  have hc : (p.state == .normal && b.palette == .normal && serialBehind p.e b.e) =
      decide (p.state = .normal ∧ b.palette = .normal ∧ 1 ≤ (b.e - p.e).toNat ∧ (b.e - p.e).toNat ≤ 32767) := by
    rw [Bool.eq_iff_iff]; simp [serialBehind, and_assoc]
  unfold Pal.hearStatus palTakesStatus
  simp only [hc, decide_eq_true_eq]
  rfl

theorem Agr.settledEntry_iff (a : Agr) (n : Station) :
    a.settledEntry n = true ↔ ∃ q rep, a.entry n = some ⟨q, some rep⟩ ∧ (q = some true → a.c ≤ rep.l) := by
  unfold Agr.settledEntry
  rcases a.entry n with _ | ⟨_ | _ | _, _ | rep⟩ <;> simp

/-- The set an unknown in-step set is rebuilt to: the heard participants of the view (R84). -/
theorem Agr.inSet_rebuilt (a : Agr) (view : StationSet) (n : Station) :
    inSet n (setOf ((members view).filter (fun n => (participantReport (a.entry n)).isSome))) = true ↔
      inSet n view = true ∧ ∃ rep, a.entry n = some ⟨some true, some rep⟩ := by
  rw [inSet_setOf, decide_eq_true_iff, List.mem_filter, mem_members]
  refine and_congr_right fun _ => ?_
  rcases a.entry n with _ | ⟨_ | _ | _, _ | rep⟩ <;> simp [participantReport]

/-- The entries after a STATUS packet is noted (R80). -/
theorem Agr.entry_noteStatus (a : Agr) (src : Station) (b : StatusBody) (n : Station) : (a.noteStatus src b).entry n =
    if n = src then
      some { participant := some b.participant, report := some { l := b.l, r := b.r, c := b.c, palette := b.palette } }
    else a.entry n := by
  simp only [Agr.noteStatus, Agr.entry, Table.get?_set]
  by_cases h : n = src
  · simp [h]
  · simp [h, show ¬ src.val = n.val from fun h' => h (Fin.ext h'.symm)]

/-- Over a known set a STATUS packet that carries no higher C is the catch-up test alone (R83). -/
theorem Agr.hearStatus_known (a : Agr) (own : Station) (view : StationSet) (src : Station) (b : StatusBody) (hc : ¬ a.c < b.c)
    (hk : a.known = true) : a.hearStatus own view src b =
      if b.participant = true ∧ a.c ≤ b.l ∧ inSet src a.inStep = false then
        if src = own ∧ a.agreement = .lagging then
          ({ a.noteStatus src b with inStep := addTo src a.inStep, agreement := .inStep },
           [{ kind := .inStep, sequence := some a.c }])
        else ({ a.noteStatus src b with inStep := addTo src a.inStep }, [])
      else (a.noteStatus src b, []) := by
  have h2 : (a.noteStatus src b).adoptC b.c = a.noteStatus src b := if_neg hc
  have h3 : (a.noteStatus src b).known = true := hk
  simp only [Agr.hearStatus, h2, Agr.catchUp, h3, Bool.true_and, Bool.and_eq_true, decide_eq_true_eq, Bool.not_eq_true', and_assoc]
  have h4 : (a.noteStatus src b).c = a.c ∧ (a.noteStatus src b).inStep = a.inStep ∧ (a.noteStatus src b).agreement = a.agreement :=
    ⟨rfl, rfl, rfl⟩
  simp only [h4.1, h4.2.1]
  split
  · by_cases ho : src = own
    · subst ho
      by_cases hg : a.agreement = .lagging <;> simp [hg, Agr.takeBack, Agr.rebuild, h4]
    · simp [ho, Agr.rebuild, h4]
  · simp [Agr.rebuild, h3]

/-- Over an unknown set, or with a higher C, a STATUS packet is the rebuild test alone (R84). -/
theorem Agr.hearStatus_unknown (a : Agr) (own : Station) (view : StationSet) (src : Station) (b : StatusBody)
    (hu : a.c < b.c ∨ a.known = false) : ∃ x : Agr, x = { a.noteStatus src b with
        c := if a.c < b.c then b.c else a.c
        known := false
        wait := if a.c < b.c then 0 else a.wait
        deadlineReported := if a.c < b.c then false else a.deadlineReported } ∧
      a.hearStatus own view src b = x.rebuild own view := by
  refine ⟨_, rfl, ?_⟩
  have hx : (a.noteStatus src b).adoptC b.c = { a.noteStatus src b with
        c := if a.c < b.c then b.c else a.c
        known := false
        wait := if a.c < b.c then 0 else a.wait
        deadlineReported := if a.c < b.c then false else a.deadlineReported } := by
    by_cases h : a.c < b.c
    · simp [Agr.adoptC, Agr.noteStatus, h]
    · simp [Agr.adoptC, Agr.noteStatus, h, hu.resolve_left h]
  simp only [Agr.hearStatus, hx, Agr.catchUp, Bool.false_and, Bool.false_eq_true, if_false, List.nil_append]

/-- A good STATUS packet of a member at the AGR (R80, R83, R84, R95). -/
theorem Agr.hearStatus_takes (a : Agr) (own : Station) (view : StationSet) (src : Station) (b : StatusBody) :
    TakesStatus own view src b a (a.hearStatus own view src b).1 (a.hearStatus own view src b).2 := by
  have he : ∀ y : Agr, y.table = (a.noteStatus src b).table → ∀ n, y.entry n = if n = src then
      some { participant := some b.participant, report := some { l := b.l, r := b.r, c := b.c, palette := b.palette } }
      else a.entry n := by
    intro y hy n; rw [← Agr.entry_noteStatus, Agr.entry, hy]; rfl
  have e1 := fun y hy => (he y hy src).trans (if_pos rfl)
  have e2 := fun y hy n (hn : n ≠ src) => (he y hy n).trans (if_neg hn)
  have hn : ∀ n, inSet n (addTo src a.inStep) = true ↔ inSet n a.inStep = true ∨ n = src := by
    intro n; simp [inSet_addTo]
  by_cases hk : ¬ a.c < b.c ∧ a.known = true
  · obtain ⟨hc, hk⟩ := hk
    rw [Agr.hearStatus_known a own view src b hc hk]
    by_cases hj : b.participant = true ∧ a.c ≤ b.l ∧ inSet src a.inStep = false
    · rw [if_pos hj]
      by_cases hg : src = own ∧ a.agreement = .lagging
      · rw [if_pos hg]
        refine ⟨?_, e1 _ rfl, e2 _ rfl, fun _ _ => hk, fun _ => hn, fun _ _ h => absurd ⟨hc, hk, hj⟩ h, ?_, ?_, fun _ => ⟨rfl,
          rfl⟩, fun h => absurd ⟨hg.2, .inl ⟨⟨hc, hk, hj⟩, hg.1⟩⟩ h⟩
        · simp [hc, Agr.noteStatus]
        · simp [hc, hk]
        · simp [hc, hk]
      · rw [if_neg hg]
        refine ⟨?_, e1 _ rfl, e2 _ rfl, fun _ _ => hk, fun _ => hn, fun _ _ h => absurd ⟨hc, hk, hj⟩ h, ?_, ?_, ?_, fun _ => ⟨rfl,
          rfl⟩⟩
        · simp [hc, Agr.noteStatus]
        · simp [hc, hk]
        · simp [hc, hk]
        · rintro ⟨g1, ⟨_, g2⟩ | ⟨⟨g2, _⟩, _⟩⟩
          · exact absurd ⟨g2, g1⟩ hg
          · simp [hc, hk] at g2
    · rw [if_neg hj]
      refine ⟨?_, e1 _ rfl, e2 _ rfl, fun _ _ => hk, fun h => absurd h.2.2 hj, fun _ _ _ => rfl, ?_, ?_, ?_, fun _ => ⟨rfl, rfl⟩⟩
      · simp [hc, Agr.noteStatus]
      · simp [hc, hk]
      · simp [hc, hk]
      · rintro ⟨g1, ⟨g2, _⟩ | ⟨⟨g2, _⟩, _⟩⟩
        · exact absurd g2.2.2 hj
        · simp [hc, hk] at g2
  · have hu : a.c < b.c ∨ a.known = false := by
      by_contra h; apply hk; simpa using h
    have hk' : ∀ {P : Prop}, ¬ a.c < b.c → a.known = true → P := fun h1 h2 => absurd ⟨h1, h2⟩ hk
    obtain ⟨x, hx, hh⟩ := Agr.hearStatus_unknown a own view src b hu
    rw [hh]
    have ht : x.table = (a.noteStatus src b).table := by rw [hx]
    have hs : (members view).all x.settledEntry = true ↔ ∀ n, inSet n view = true →
        ∃ q rep, x.entry n = some ⟨q, some rep⟩ ∧ (q = some true → x.c ≤ rep.l) := by
      simp only [List.all_eq_true, mem_members, Agr.settledEntry_iff]
    have hxk : x.known = false := by rw [hx]
    by_cases hr : (members view).all x.settledEntry = true
    · have hr' := hs.1 hr
      have hm := Agr.inSet_rebuilt x view
      have h5 : ∃ w, (∀ n, inSet n w = true ↔ inSet n view = true ∧ ∃ rep, x.entry n = some ⟨some true, some rep⟩) ∧
          x.rebuild own view = if inSet own w = true ∧ a.agreement = .lagging then
            ({ x with inStep := w, known := true, agreement := .inStep }, [{ kind := .inStep, sequence := some x.c }])
          else ({ x with inStep := w, known := true }, []) := by
        refine ⟨_, hm, ?_⟩
        have hg : x.agreement = a.agreement := by rw [hx]; rfl
        simp only [Agr.rebuild, hxk, hr, Bool.not_false, Bool.and_self, if_true, Agr.takeBack, hg]
        split <;> split <;> simp_all
      obtain ⟨w, hw, h5⟩ := h5
      rw [h5]
      by_cases hg : inSet own w = true ∧ a.agreement = .lagging
      · rw [if_pos hg]
        refine ⟨?_, e1 _ ht, e2 _ ht, hk', fun h => hk' h.1 h.2.1, hk', fun _ => ⟨fun _ => ⟨hu, hr'⟩, fun _ => rfl⟩, fun _ => hw,
          fun _ => ⟨rfl, rfl⟩, fun h => absurd ⟨hg.2, .inr ⟨⟨hu, hr'⟩, hg.1⟩⟩ h⟩
        rw [hx]; simp [Agr.noteStatus]
      · rw [if_neg hg]
        refine ⟨?_, e1 _ ht, e2 _ ht, hk', fun h => hk' h.1 h.2.1, hk', fun _ => ⟨fun _ => ⟨hu, hr'⟩, fun _ => rfl⟩, fun _ => hw,
          ?_, fun _ => ⟨by rw [hx]; rfl, rfl⟩⟩
        · rw [hx]; simp [Agr.noteStatus]
        · rintro ⟨g1, ⟨g, _⟩ | ⟨_, g⟩⟩
          · exact hk' g.1 g.2.1
          · exact absurd ⟨g, g1⟩ hg
    · have h5 : x.rebuild own view = (x, []) := by simp [Agr.rebuild, hr]
      rw [h5]
      refine ⟨?_, e1 _ ht, e2 _ ht, hk', fun h => hk' h.1 h.2.1, hk', ?_, ?_, ?_, fun _ => ⟨by rw [hx]; rfl, rfl⟩⟩
      · rw [hx]; simp [Agr.noteStatus]
      · intro _; simp only [hxk, Bool.false_eq_true, false_iff]; intro h; exact hr (hs.2 h.2)
      · intro h; exact absurd (hs.2 h.2) hr
      · rintro ⟨_, ⟨g, _⟩ | ⟨g, _⟩⟩
        · exact hk' g.1 g.2.1
        · exact absurd (hs.2 g.2) hr
end Sys2Proof.Machine
end

