-- ==== Sys2Proof/Laws/PerInstr.lean ====
section
/-! SUPPORT. Family Frame: the frame of a well-formed control-port command decodes to that command, one lemma per constructor; the
rows that are no such command have no frame. -/

namespace Sys2Proof.Laws

theorem seqOfBytes_byteAt (q : Seq) : seqOfBytes (byteAt q 32) (byteAt q 24) (byteAt q 16) (byteAt q 8) (byteAt q 0) = q := by
  apply BitVec.eq_of_getLsbD_eq
  intro i hi
  simp only [seqOfBytes, byteAt, BitVec.getLsbD_append, BitVec.getLsbD_extractLsb']
  by_cases h1 : i < 8
  · simp [h1]
  · by_cases h2 : i - 8 < 8
    · simp [h1, h2, show 8 + (i - 8) = i by omega]
    · by_cases h3 : i - 8 - 8 < 8
      · simp [h1, h2, h3, show 16 + (i - 8 - 8) = i by omega]
      · by_cases h4 : i - 8 - 8 - 8 < 8
        · simp [h1, h2, h3, h4, show 24 + (i - 8 - 8 - 8) = i by omega]
        · simp [h1, h2, h3, h4, show 32 + (i - 8 - 8 - 8 - 8) = i by omega, show i - 8 - 8 - 8 - 8 < 8 by omega]

theorem valueOfBytes_byteAt (v : Value) : valueOfBytes (byteAt v 24) (byteAt v 16) (byteAt v 8) (byteAt v 0) = v := by
  apply BitVec.eq_of_getLsbD_eq
  intro i hi
  simp only [valueOfBytes, byteAt, BitVec.getLsbD_append, BitVec.getLsbD_extractLsb']
  by_cases h1 : i < 8
  · simp [h1]
  · by_cases h2 : i - 8 < 8
    · simp [h1, h2, show 8 + (i - 8) = i by omega]
    · by_cases h3 : i - 8 - 8 < 8
      · simp [h1, h2, h3, show 16 + (i - 8 - 8) = i by omega]
      · simp [h1, h2, h3, show 24 + (i - 8 - 8 - 8) = i by omega, show i - 8 - 8 - 8 < 8 by omega]

theorem serialOfBytes_byteAt (v : Serial) : serialOfBytes (byteAt v 8) (byteAt v 0) = v := by
  apply BitVec.eq_of_getLsbD_eq
  intro i hi
  simp only [serialOfBytes, byteAt, BitVec.getLsbD_append, BitVec.getLsbD_extractLsb']
  by_cases h1 : i < 8
  · simp [h1]
  · simp [h1, show 8 + (i - 8) = i by omega, show i - 8 < 8 by omega]

theorem wordsOfBytes_flatMap (ws : List Value) : wordsOfBytes (ws.flatMap bytesOfValue) = ws := by
  induction ws with
  | nil => rfl
  | cons w ws ih =>
    simp only [List.flatMap_cons, bytesOfValue, List.cons_append, List.nil_append, wordsOfBytes, valueOfBytes_byteAt]
    exact congrArg _ ih

theorem length_flatMap_bytesOfValue (ws : List Value) : (ws.flatMap bytesOfValue).length = 4 * ws.length := by
  induction ws with
  | nil => rfl
  | cons w ws ih => simp only [List.flatMap_cons, List.length_append, ih, bytesOfValue, List.length_cons, List.length_nil]; omega

theorem toNat_ofNat_byte {n : Nat} (h : n ≤ 255) : (BitVec.ofNat 8 n).toNat = n := by
  rw [BitVec.toNat_ofNat]; omega

/-! ### The frames with fields of several bytes -/

theorem decodeFrame_ready (a b c d e : Byte) : decodeFrame [0x0B, a, b, c, d, e] = some (.ready (seqOfBytes a b c d e)) := rfl

theorem decodeFrame_submitPalette (a b c d e x y n : Byte) (rest : List Byte) :
    decodeFrame (0x0C :: a :: b :: c :: d :: e :: x :: y :: n :: rest) =
      if rest.length = 4 * n.toNat then some (.submitPalette (seqOfBytes a b c d e) (serialOfBytes x y) (wordsOfBytes rest))
      else none := rfl

theorem decodeFrame_readPalette (x y n : Byte) : decodeFrame [0x0D, x, y, n] = some (.readPalette (serialOfBytes x y) n) := rfl

theorem decodeFrame_sendMessage (d st k c n : Byte) (rest : List Byte) :
    decodeFrame (0x0E :: d :: st :: k :: c :: n :: rest) =
      if rest.length = n.toNat then some (.sendMessage d st k c rest) else none := rfl

theorem decodeFrame_writeAttribute (i a b c d : Byte) :
    decodeFrame [0x11, i, a, b, c, d] = some (.writeAttribute i (valueOfBytes a b c d)) := rfl

theorem decodeFrame_remoteWrite (t i a b c d : Byte) :
    decodeFrame [0x13, t, i, a, b, c, d] = some (.remoteWrite t i (valueOfBytes a b c d)) := rfl

namespace Frame

/-- The frame of a well-formed command decodes to it. -/
def Statement (i : Instr) : Prop := i.wellFormed = true → ∀ bytes, encodeFrame i = some bytes → decodeFrame bytes = some i

theorem powerOnReset : Statement (.powerOnReset) := by
  intro _ bytes h; cases h

theorem powerOnResetEnd (straps : Straps) : Statement (.powerOnResetEnd straps) := by
  intro _ bytes h; cases h

theorem pinResetAssert : Statement (.pinResetAssert) := by
  intro _ bytes h; cases h

theorem pinResetRelease (straps : Straps) : Statement (.pinResetRelease straps) := by
  intro _ bytes h; cases h

theorem transactionOpen : Statement (.transactionOpen) := by
  intro _ bytes h; cases h

theorem refusedFormat (bits : List Bool) : Statement (.refusedFormat bits) := by
  intro _ bytes h; cases h

theorem noOperation : Statement (.noOperation) := by
  intro _ bytes h; cases h; rfl

theorem readState : Statement (.readState) := by
  intro _ bytes h; cases h; rfl

theorem readView : Statement (.readView) := by
  intro _ bytes h; cases h; rfl

theorem readReadiness (number : Byte) : Statement (.readReadiness number) := by
  intro _ bytes h; cases h; rfl

theorem takeEvent : Statement (.takeEvent) := by
  intro _ bytes h; cases h; rfl

theorem configure (participant policy deadline budget streams recovery : Byte) : Statement (.configure participant policy deadline budget streams recovery) := by
  intro _ bytes h; cases h; rfl

theorem go : Statement (.go) := by
  intro _ bytes h; cases h; rfl

theorem leave : Statement (.leave) := by
  intro _ bytes h; cases h; rfl

theorem restart : Statement (.restart) := by
  intro _ bytes h; cases h; rfl

theorem acknowledgeFault : Statement (.acknowledgeFault) := by
  intro _ bytes h; cases h; rfl

theorem ready (n : Seq) : Statement (.ready n) := by
  intro _ bytes h
  simp only [encodeFrame, bytesOfSeq, Option.some.injEq] at h
  subst h
  rw [decodeFrame_ready, seqOfBytes_byteAt]

theorem submitPalette (effective : Seq) (start : BitVec 16) (words : List Value) : Statement (.submitPalette effective start words) := by
  intro hw bytes h
  have hlen : words.length ≤ 255 := by simpa [Instr.wellFormed] using hw
  simp only [encodeFrame, bytesOfSeq, bytesOfSerial, List.cons_append, List.nil_append, Option.some.injEq] at h
  subst h
  rw [decodeFrame_submitPalette, if_pos (by rw [length_flatMap_bytesOfValue, toNat_ofNat_byte hlen]), seqOfBytes_byteAt,
    serialOfBytes_byteAt, wordsOfBytes_flatMap]

theorem readPalette (start : BitVec 16) (count : Byte) : Statement (.readPalette start count) := by
  intro _ bytes h
  simp only [encodeFrame, bytesOfSerial, List.cons_append, List.nil_append, Option.some.injEq] at h
  subst h
  rw [decodeFrame_readPalette, serialOfBytes_byteAt]

theorem sendMessage (dest stream ack cls : Byte) (payload : List Byte) : Statement (.sendMessage dest stream ack cls payload) := by
  intro hw bytes h
  have hlen : payload.length ≤ 255 := by simpa [Instr.wellFormed] using hw
  simp only [encodeFrame, List.cons_append, List.nil_append, Option.some.injEq] at h
  subst h
  rw [decodeFrame_sendMessage, if_pos (toNat_ofNat_byte hlen).symm]

theorem takeMessage : Statement (.takeMessage) := by
  intro _ bytes h; cases h; rfl

theorem readAttribute (start count : Byte) : Statement (.readAttribute start count) := by
  intro _ bytes h; cases h; rfl

theorem writeAttribute (index : Byte) (value : Value) : Statement (.writeAttribute index value) := by
  intro _ bytes h
  simp only [encodeFrame, bytesOfValue, Option.some.injEq] at h
  subst h
  rw [decodeFrame_writeAttribute, valueOfBytes_byteAt]

theorem remoteRead (target start count : Byte) : Statement (.remoteRead target start count) := by
  intro _ bytes h; cases h; rfl

theorem remoteWrite (target index : Byte) (value : Value) : Statement (.remoteWrite target index value) := by
  intro _ bytes h
  simp only [encodeFrame, bytesOfValue, Option.some.injEq] at h
  subst h
  rw [decodeFrame_remoteWrite, valueOfBytes_byteAt]

theorem takeResult (tag : Byte) : Statement (.takeResult tag) := by
  intro _ bytes h; cases h; rfl

theorem activity : Statement (.activity) := by
  intro _ bytes h; cases h

theorem receiverRearm (judged : Option Heard) : Statement (.receiverRearm judged) := by
  intro _ bytes h; cases h

theorem unreadablePacketHeard (u : Unreadable) : Statement (.unreadablePacketHeard u) := by
  intro _ bytes h; cases h

theorem lifBeginDriving : Statement (.lifBeginDriving) := by
  intro _ bytes h; cases h

theorem packetSent : Statement (.packetSent) := by
  intro _ bytes h; cases h

theorem contention (kind : DriveFault) : Statement (.contention kind) := by
  intro _ bytes h; cases h

theorem handoverHeard (h : Head) (attempt : Attempt) (view : StationSet) (flaw : Option Flaw) : Statement (.handoverHeard h attempt view flaw) := by
  intro _ bytes h; cases h

theorem claimHeard (h : Head) (flaw : Option Flaw) : Statement (.claimHeard h flaw) := by
  intro _ bytes h; cases h

theorem inviteHeard (h : Head) (flaw : Option Flaw) : Statement (.inviteHeard h flaw) := by
  intro _ bytes h; cases h

theorem joinHeard (h : Head) (participant : Bool) (flaw : Option Flaw) : Statement (.joinHeard h participant flaw) := by
  intro _ bytes h; cases h

theorem leaveHeard (h : Head) (flaw : Option Flaw) : Statement (.leaveHeard h flaw) := by
  intro _ bytes h; cases h

theorem statusHeard (h : Head) (p : Payload StatusBody) : Statement (.statusHeard h p) := by
  intro _ bytes h; cases h

theorem commitHeard (h : Head) (p : Payload CommitBody) : Statement (.commitHeard h p) := by
  intro _ bytes h; cases h

theorem paletteHeard (h : Head) (p : Payload UpdateRecord) : Statement (.paletteHeard h p) := by
  intro _ bytes h; cases h

theorem snapshotRequestHeard (h : Head) (flaw : Option Flaw) : Statement (.snapshotRequestHeard h flaw) := by
  intro _ bytes h; cases h

theorem snapshotHeard (h : Head) (part : Byte) (p : Payload SnapshotBody) : Statement (.snapshotHeard h part p) := by
  intro _ bytes h; cases h

theorem replayHeard (h : Head) (p : Payload UpdateRecord) : Statement (.replayHeard h p) := by
  intro _ bytes h; cases h

theorem messageHeard (h : Head) (ack : Bool) (stream : BitVec 2) (p : Payload (List Byte)) : Statement (.messageHeard h ack stream p) := by
  intro _ bytes h; cases h

theorem readHeard (h : Head) (start count : Byte) (flaw : Option Flaw) : Statement (.readHeard h start count flaw) := by
  intro _ bytes h; cases h

theorem writeHeard (h : Head) (index : Byte) (value : Value) (flaw : Option Flaw) : Statement (.writeHeard h index value flaw) := by
  intro _ bytes h; cases h

theorem readReturnHeard (h : Head) (start count : Byte) (p : Payload (List Value)) : Statement (.readReturnHeard h start count p) := by
  intro _ bytes h; cases h

theorem ackHeard (h : Head) (result : AckResult) (headerCorrected : Bool) (flaw : Option Flaw) : Statement (.ackHeard h result headerCorrected flaw) := by
  intro _ bytes h; cases h

theorem replyWindowEnd : Statement (.replyWindowEnd) := by
  intro _ bytes h; cases h

theorem turnaroundWindowEnd : Statement (.turnaroundWindowEnd) := by
  intro _ bytes h; cases h

theorem claimDelayExpiry : Statement (.claimDelayExpiry) := by
  intro _ bytes h; cases h

theorem foundingSilenceExpiry : Statement (.foundingSilenceExpiry) := by
  intro _ bytes h; cases h

theorem busHoldIntervalExpiry : Statement (.busHoldIntervalExpiry) := by
  intro _ bytes h; cases h

theorem snapshotWaitExpiry : Statement (.snapshotWaitExpiry) := by
  intro _ bytes h; cases h

theorem requestTimeout (tag : Byte) : Statement (.requestTimeout tag) := by
  intro _ bytes h; cases h

theorem frameLowQualified : Statement (.frameLowQualified) := by
  intro _ bytes h; cases h

theorem frameRisingEdge : Statement (.frameRisingEdge) := by
  intro _ bytes h; cases h

theorem frameGlitch : Statement (.frameGlitch) := by
  intro _ bytes h; cases h

theorem framePulse : Statement (.framePulse) := by
  intro _ bytes h; cases h

theorem spacingWindowClose : Statement (.spacingWindowClose) := by
  intro _ bytes h; cases h

theorem applicationComplete : Statement (.applicationComplete) := by
  intro _ bytes h; cases h

theorem presentPulseEnd : Statement (.presentPulseEnd) := by
  intro _ bytes h; cases h

theorem paletteLookup (index : BitVec 9) : Statement (.paletteLookup index) := by
  intro _ bytes h; cases h

theorem frameFallingEdge : Statement (.frameFallingEdge) := by
  intro _ bytes h; cases h

end Frame

end Sys2Proof.Laws
end

