-- ==== Sys2Proof/Laws/Port.lean ====
section
/-! SUPPORT. What a transaction and the taking of a command do, said once: the bits on SDO, the owner's effect, the held response. -/

namespace Sys2Proof.Machine

/-! ### The bits of a transaction (R156, R157) -/

theorem bitsOfBytes_length (bs : List Byte) : (bitsOfBytes bs).length = 8 * bs.length := by
  induction bs with
  | nil => rfl
  | cons b t ih => simp only [bitsOfBytes, List.flatMap_cons, List.length_append, List.length_cons] at ih ⊢; rw [ih]; simp [bitsOfByte]; omega

/-- Bit j of byte i of the stream stands on SDO after 8 × i + j cycles, the most significant first. -/
theorem streamBit_byte (pre post : List Byte) (b : Byte) (j : Nat) (hj : j < 8) :
    streamBit (pre ++ b :: post) (8 * pre.length + j) = b.getLsbD (7 - j) := by
  have ha : bitsOfBytes (pre ++ b :: post) = bitsOfBytes pre ++ (bitsOfByte b ++ bitsOfBytes post) := by
    simp [bitsOfBytes, List.flatMap_append, List.flatMap_cons]
  simp only [streamBit, List.getD_eq_getElem?_getD]
  rw [ha, ← bitsOfBytes_length, List.getElem?_append_right (Nat.le_add_right _ _), Nat.add_sub_cancel_left,
    List.getElem?_append_left (by simp [bitsOfByte]; omega)]
  have : j = 0 ∨ j = 1 ∨ j = 2 ∨ j = 3 ∨ j = 4 ∨ j = 5 ∨ j = 6 ∨ j = 7 := by omega
  rcases this with h | h | h | h | h | h | h | h <;> subst h <;> rfl

/-- After the last byte of the stream SDO carries zero bits. -/
theorem streamBit_past (out : List Byte) (k : Nat) (h : 8 * out.length ≤ k) : streamBit out k = false := by
  simp [streamBit, List.getD_eq_getElem?_getD, List.getElem?_eq_none (by rw [bitsOfBytes_length]; exact h : (bitsOfBytes out).length ≤ k)]

/-- The cycles of SCK of an open transaction gather the bits of SDI and leave the stream. -/
theorem clockAll_opened (out : List Byte) (received sdi : List Bool) :
    (Port.opened out received).clockAll sdi = .opened out (received ++ sdi) := by
  induction sdi generalizing received with
  | nil => simp [Port.clockAll]
  | cons b bs ih =>
    have := ih (received ++ [b])
    simp only [Port.clockAll, List.foldl_cons, Port.clock] at this ⊢
    rw [this]; simp

/-! ### Taking a command (R158) -/

/-- A command taken: the owner's effect, and its response held with the transaction closed. -/
theorem takeCommand_taken (f : State → State × Response) (s : State) (h : canTake s = true) :
    takeCommand f s = answered (f s).2 (f s).1 := by simp [takeCommand, answered, h]

/-- During a reset, and at the end of a transaction that a reset abandoned, no command is taken. -/
theorem takeCommand_untaken (f : State → State × Response) (s : State) (h : canTake s = false) :
    takeCommand f s = s.onCpe Cpe.endUntaken := by simp [takeCommand, h]

theorem closeFrame_taken (r : Option Response) (s : State) (h : canTake s = true) :
    closeFrame r s = s.onCpe (fun c => c.close r) := by simp [closeFrame, h]

theorem closeFrame_untaken (r : Option Response) (s : State) (h : canTake s = false) :
    closeFrame r s = s.onCpe Cpe.endUntaken := by simp only [closeFrame, h]; rfl

/-- What `answered` leaves. -/
theorem answered_eq (r : Response) (s : State) : answered r s = { s with cpe := { s.cpe with port := .closed, held := some r } } := rfl

end Sys2Proof.Machine
end

