-- ==== Sys2Proof/Laws/Scheduler.lean ====
section
/-! SUPPORT. What one choice of the scheduler can do, said once (R38 to R41, R45, R65, R71, R78, R88, R105, R114, R116, R118, R131,
R136, R144, R146). -/

namespace Sys2Proof.Machine

/-- What a choice keeps: it hands a packet to the LIF, and changes no more than the notes of the POS, the answer and the authority of
the PAL, stale returns of the ATT, and PALETTE RESYNCED in the event queue. -/
structure Chosen (s t : State) : Prop where
  startup : t.startup = s.startup
  mem : t.mem = s.mem
  agr : t.agr = s.agr
  msg : t.msg = s.msg
  frame : t.frame = s.frame
  outputs : t.outputs = s.outputs
  free : t.free = s.free
  pending : t.pending = s.pending
  lif : ∃ tx, t.lif = { s.lif with driver := .waiting tx }
  pos : t.pos = { s.pos with batch := t.pos.batch, handover := t.pos.handover }
  att : t.att = { s.att with returns := t.att.returns }
  port : t.cpe.port = s.cpe.port ∧ t.cpe.held = s.cpe.held
  events : t.cpe.events = s.cpe.events ∨ ∃ e, e.kind = .paletteResynced ∧ t.cpe.events = pushEvent s.cpe.events e
  credits : t.pal.credits = s.pal.credits
  bank : t.pal.bank = s.pal.bank

/-- What a choice may change before it hands a packet over. -/
structure Prepared (s t : State) : Prop where
  startup : t.startup = s.startup
  mem : t.mem = s.mem
  agr : t.agr = s.agr
  msg : t.msg = s.msg
  frame : t.frame = s.frame
  outputs : t.outputs = s.outputs
  free : t.free = s.free
  pending : t.pending = s.pending
  lif : t.lif = s.lif
  pos : t.pos = s.pos
  att : t.att = { s.att with returns := t.att.returns }
  port : t.cpe.port = s.cpe.port ∧ t.cpe.held = s.cpe.held
  events : t.cpe.events = s.cpe.events ∨ ∃ e, e.kind = .paletteResynced ∧ t.cpe.events = pushEvent s.cpe.events e
  credits : t.pal.credits = s.pal.credits
  bank : t.pal.bank = s.pal.bank

theorem Prepared.refl (s : State) : Prepared s s :=
  ⟨rfl, rfl, rfl, rfl, rfl, rfl, rfl, rfl, rfl, rfl, rfl, ⟨rfl, rfl⟩, .inl rfl, rfl, rfl⟩

/-- A packet granted after the preparation. -/
theorem Prepared.grant {s t : State} (h : Prepared s t) (tx : Tx) : Chosen s (grant tx t) :=
  ⟨h.startup, h.mem, h.agr, h.msg, h.frame, h.outputs, h.free, h.pending, ⟨tx, by simp [Machine.grant, h.lif]⟩,
    by simp [Machine.grant, h.pos], h.att, h.port, h.events, h.credits, h.bank⟩

theorem Prepared.grantHandover {s t : State} (h : Prepared s t) : Chosen s (grantHandover t) :=
  ⟨h.startup, h.mem, h.agr, h.msg, h.frame, h.outputs, h.free, h.pending,
    ⟨_, by simp only [Machine.grantHandover, Machine.grant, State.lif_onPos, State.lif_onLif, h.lif]; rfl⟩,
    by simp [Machine.grantHandover, Machine.grant, h.pos], h.att, h.port, h.events, h.credits, h.bank⟩

theorem Prepared.grantStatus {s t : State} (h : Prepared s t) : Chosen s (grantStatus t) :=
  ⟨h.startup, h.mem, h.agr, h.msg, h.frame, h.outputs, h.free, h.pending,
    ⟨_, by simp only [Machine.grantStatus, Machine.grant, State.lif_onPos, State.lif_onLif, h.lif]; rfl⟩,
    by simp [Machine.grantStatus, Machine.grant, h.pos], h.att, h.port, h.events, h.credits, h.bank⟩

theorem Prepared.startAnswer {s t : State} (h : Prepared s t) : Prepared s (t.onPal (fun p => p.startAnswer t.agr.l)) := by
  refine ⟨h.startup, h.mem, h.agr, h.msg, h.frame, h.outputs, h.free, h.pending, h.lif, h.pos, h.att, h.port, h.events, ?_, ?_⟩
  · simp only [State.pal_onPal, Pal.startAnswer]; split <;> exact h.credits
  · simp only [State.pal_onPal, Pal.startAnswer]; split <;> exact h.bank

theorem Prepared.dropStale {s t : State} (h : Prepared s t) : Prepared s (t.onAtt (fun a => a.dropStale t.mem.view)) :=
  ⟨h.startup, h.mem, h.agr, h.msg, h.frame, h.outputs, h.free, h.pending, h.lif, h.pos, by
    have ha := h.att
    cases hs : s.att; cases ht : t.att
    simp_all [Att.dropStale], h.port, h.events, h.credits, h.bank⟩

theorem Prepared.declareAuthority {s t : State} (h : Prepared s t) (he : t.cpe.events = s.cpe.events) :
    Prepared s (declareAuthority t) := by
  simp only [Machine.declareAuthority]
  split
  · exact ⟨h.startup, h.mem, h.agr, h.msg, h.frame, h.outputs, h.free, h.pending, h.lif, h.pos, h.att, h.port,
      .inr ⟨_, rfl, by simp only [State.raise, State.onCpe, State.onPal, he]; rfl⟩, h.credits, h.bank⟩
  · exact h

theorem Prepared.grantAnswer {s t : State} (h : Prepared s t) : Chosen s (grantAnswer t) := by
  simp only [Machine.grantAnswer]
  split
  · exact h.startAnswer.grant _
  · exact h.startAnswer.grantHandover

theorem Prepared.chooseAmong {s t : State} (h : Prepared s t) : Chosen s (chooseAmong t) := by
  simp only [Machine.chooseAmong]
  split
  · exact h.grantAnswer
  · split
    · exact h.grantHandover
    · split
      · exact h.grant _
      · split
        · exact h.grantAnswer
        · split
          · exact h.grant _
          · exact h.grantHandover

/-- The one lemma about a choice: what it keeps, whatever it grants. -/
theorem choose_chosen (s : State) : Chosen s (choose s) := by
  have h := (Prepared.refl s).dropStale
  simp only [choose, choosePacket]
  split
  · simp only [chooseLeaving]
    split
    · exact h.grant _
    · exact h.grant _
  · split
    · exact (h.declareAuthority rfl).chooseAmong
    · split
      · exact h.grantHandover
      · exact h.grantStatus

/-- A possession begins in POSSESSING with its counts at zero and a packet handed to the LIF. -/
theorem beginPossession_chosen (s : State) : Chosen (enterPossessing s) (beginPossession s) := choose_chosen _

end Sys2Proof.Machine
end

