-- ==== Sys2Proof/Tests/Slice0.lean ====
section
/-! SUPPORT. Small checks: ill-formed terms, frames and packets written out from the spec's layouts, one step of a few commands, and for
every statement with hypotheses a state and operands that meet them. -/

section
set_option Elab.async false
open Sys2Proof Sys2Proof.Machine

namespace Sys2Proof.Tests

/-! ### Small states -/

/-- A configuration record. -/
def record : ConfigRecord :=
  { participant := true, policy := .hold, deadline := 10, holdBudget := 6, openStreams := 1, recovery := .automatic }

/-- A header from a station to a destination. -/
def from' (n : Station) (d : Dest) (tag : Byte) : Head := { source := n, dest := d, tag := tag, corrected := false }

/-- A heard readiness entry. -/
def heard (r : Seq) : Readiness := { participant := some true, report := some { l := 0, r := r, c := 0, palette := .normal } }

/-- Station 1, a MEMBER of the wall {1, 2}, LISTENING with its receiver ARMED. -/
def member : State :=
  { State.afterReset 1 false 0 [] with
    startup := { powerReset := false, pinReset := false, life := .member, config := some record, number := 1 }
    lif := { Lif.reset with receiver := .armed }
    pos := { Pos.reset with state := .listening }
    mem := { view := 6, cursor := 1, joinPending := false }
    agr := { Agr.reset with table := [(1, heard 0), (2, heard 0)], inStep := 6, known := true, agreement := .inStep }
    pal := { Pal.reset [] with state := .normal, credits := [(1, 16), (2, 16)] }
    msg := { Msg.reset with credits := [(1, 8), (2, 8)] }
    cpe := { port := .closed, held := none, events := [] } }

/-- A member in another life-cycle state. -/
def withLife (l : Life) (s : State) : State := s.setLife l

/-- A pending station. -/
def pending : State :=
  { State.afterReset 1 false 0 [] with
    startup := { powerReset := false, pinReset := false, life := .joinPending, config := some record, number := 1 }
    lif := { Lif.reset with receiver := .armed }
    pos := { Pos.reset with state := .listening }
    mem := { view := 0, cursor := 1, joinPending := true } }

/-- A station in STANDBY. -/
def standby : State :=
  { State.afterReset 1 false 0 [] with
    startup := { powerReset := false, pinReset := false, life := .standby, config := some record, number := 1 } }

/-- A member whose driver holds a packet. -/
def driving (p : Possession) (cls : TxClass) (k : Packet) : State :=
  { member with lif := { member.lif with driver := .driving ⟨cls, k⟩, receiver := .delimiter }, pos := { member.pos with state := p } }

/-- A member that awaits the reply of station 2. -/
def awaiting (owner : SlotOwner) (tag : Byte) : State :=
  { member with pos := { member.pos with
      state := .awaitingReply
      slot := some { target := 2, tag := tag, owner := owner, activity := false, elapsed := 300 } } }

/-- An outbound message record. -/
def message (attempts : Nat) : OutMessage :=
  { tag := 9, dest := .station 2, stream := 0, ack := true, payload := [1], attempts := attempts }

/-- A READ of this station. -/
def request (attempts : Nat) (st : RequestState) : Request :=
  { tag := 5, kind := .read 8 1, target := 2, attempts := attempts, state := st, corrected := false }

/-- A member that installs the answer of station 2. -/
def installing (next replays n : Nat) : State :=
  member.onPal (fun p => { p with
    state := .receiving, candidate := some 2, outstanding := true, requestTag := 4, wait := some 0
    install := some { s := 3, e0 := 10, n := n, nextPart := next, replays := replays } })

/-- An update record with a serial. -/
def update (serial : Serial) : UpdateRecord := { serial := serial, effective := 7, start := 510, entries := [1, 2] }

/-! ### The invariants on the small states -/

theorem test_member_invariant : stationInvariant member = true := by decide +kernel
theorem test_pending_invariant : stationInvariant pending = true := by decide +kernel
theorem test_standby_invariant : stationInvariant standby = true := by decide +kernel
theorem test_installing_invariant : stationInvariant (installing 3 0 2) = true := by decide +kernel

/-! ### Ill-formed terms -/

theorem test_wf_refusedFormat : (Instr.refusedFormat [false, false, false, false, false, false, false, true]).wellFormed = false := by
  decide +kernel
theorem test_wf_submitPalette : (Instr.submitPalette 0 0 (List.replicate 256 0)).wellFormed = false := by decide +kernel
theorem test_wf_sendMessage : (Instr.sendMessage 0 0 0 0 (List.replicate 256 0)).wellFormed = false := by decide +kernel
theorem test_wf_rearm : (Instr.receiverRearm (some (.readable (.claim (from' 2 .all 0) none)))).wellFormed = false := by decide +kernel
theorem test_wf_handover :
    (Instr.handoverHeard (from' 2 .all 0) .first 6 (some .payloadFailed)).wellFormed = false := by decide +kernel
theorem test_wf_short : (Instr.claimHeard (from' 2 .all 0) (some .payloadFailed)).wellFormed = false ∧
    (Instr.inviteHeard (from' 2 .all 0) (some .payloadFailed)).wellFormed = false ∧
    (Instr.joinHeard (from' 2 .all 0) true (some .payloadFailed)).wellFormed = false ∧
    (Instr.leaveHeard (from' 2 .all 0) (some .payloadFailed)).wellFormed = false ∧
    (Instr.snapshotRequestHeard (from' 2 .all 0) (some .payloadFailed)).wellFormed = false ∧
    (Instr.readHeard (from' 2 .all 0) 0 1 (some .payloadFailed)).wellFormed = false ∧
    (Instr.writeHeard (from' 2 .all 0) 32 1 (some .payloadFailed)).wellFormed = false ∧
    (Instr.ackHeard (from' 2 .all 0) .ok false (some .payloadFailed)).wellFormed = false := by decide +kernel
theorem test_wf_palette : (Instr.paletteHeard (from' 2 .all 0) (.good { update 0 with entries := [] })).wellFormed = false ∧
    (Instr.replayHeard (from' 2 .all 0) (.good { update 0 with entries := List.replicate 65 0 })).wellFormed = false := by decide +kernel
theorem test_wf_snapshot :
    (Instr.snapshotHeard (from' 2 .all 0) 8 (.good ⟨none, List.replicate 64 0⟩)).wellFormed = false ∧
    (Instr.snapshotHeard (from' 2 .all 0) 1 (.good ⟨none, List.replicate 63 0⟩)).wellFormed = false ∧
    (Instr.snapshotHeard (from' 2 .all 0) 0 (.good ⟨none, List.replicate 64 0⟩)).wellFormed = false ∧
    (Instr.snapshotHeard (from' 2 .all 0) 1 (.good ⟨some ⟨0, 0, 0⟩, List.replicate 64 0⟩)).wellFormed = false := by decide +kernel
theorem test_wf_message : (Instr.messageHeard (from' 2 .all 0) false 0 (.good [])).wellFormed = false ∧
    (Instr.messageHeard (from' 2 .all 0) false 0 (.good (List.replicate 129 0))).wellFormed = false := by decide +kernel
theorem test_wf_readReturn : (Instr.readReturnHeard (from' 2 .all 0) 0 2 (.good [1])).wellFormed = false ∧
    (Instr.readReturnHeard (from' 2 .all 0) 0 17 (.good (List.replicate 17 0))).wellFormed = false := by decide +kernel

/-! ### Frames of section 11.4 -/

theorem test_frames_plain : ([[0x01], [0x02], [0x03], [0x05], [0x07], [0x08], [0x09], [0x0A], [0x0F]] : List (List Byte)).map decodeFrame =
    [some .noOperation, some .readState, some .readView, some .takeEvent, some .go, some .leave, some .restart,
     some .acknowledgeFault, some .takeMessage] := by decide +kernel
theorem test_frames_fields : ([[0x04, 31], [0x06, 1, 0, 60, 0, 15, 1], [0x0D, 0x01, 0xE0, 32], [0x10, 8, 2], [0x12, 2, 8, 1],
      [0x14, 5]] : List (List Byte)).map decodeFrame =
    [some (.readReadiness 31), some (.configure 1 0 60 0 15 1), some (.readPalette 480 32), some (.readAttribute 8 2),
     some (.remoteRead 2 8 1), some (.takeResult 5)] := by decide +kernel
theorem test_frames_numbers : ([[0x0B, 0x01, 0, 0, 0, 0x02], [0x11, 9, 0x12, 0x34, 0x56, 0x78], [0x13, 2, 40, 0, 0, 1, 0]] :
      List (List Byte)).map decodeFrame =
    [some (.ready 0x0100000002), some (.writeAttribute 9 0x12345678), some (.remoteWrite 2 40 256)] := by decide +kernel
theorem test_frames_variable : ([[0x0C, 0, 0, 0, 0, 9, 0x01, 0xFF, 1, 0x3F, 0xFF, 0xFF, 0xFF], [0x0E, 0x3F, 3, 1, 0, 2, 7, 8]] :
      List (List Byte)).map decodeFrame =
    [some (.submitPalette 9 511 [0x3FFFFFFF]), some (.sendMessage 0x3F 3 1 0 [7, 8])] := by decide +kernel
theorem test_frames_malformed : ([[], [0x00], [0x15], [0x01, 0], [0x0B, 1, 2, 3, 4], [0x0C, 0, 0, 0, 0, 9, 0, 0, 2, 0, 0, 0, 1],
      [0x0E, 2, 0, 0, 0, 3, 1]] : List (List Byte)).map decodeFrame = [none, none, none, none, none, none, none] := by decide +kernel
theorem test_bits_of_ready : judgeBits (bitsOfBytes [0x0B, 0, 0, 0, 0, 5]) = .command (.ready 5) := by decide +kernel
theorem test_partial_byte : judgeBits [false, true, false] = .malformed := by decide +kernel
theorem test_no_bits : portRow [] = .refusedFormat [] := by decide +kernel

/-! ### Packets of sections 11.1 and 11.2, and the check codes of R177 -/

theorem test_cell_kinds : ([⟨.high, .low⟩, ⟨.low, .high⟩, ⟨.high, .high⟩, ⟨.low, .low⟩, ⟨.released, .low⟩, ⟨.high, .released⟩] :
    List Cell).map Cell.kind = [.data true, .data false, .violationHigh, .violationLow, .gone, .gone] := by decide +kernel
theorem test_payload_check : payloadCheck [0x31, 0x32, 0x33, 0x34, 0x35, 0x36, 0x37, 0x38, 0x39] = 0x29B1 := by decide +kernel
theorem test_positions : dataPositions.length = 96 ∧ dataPositions.head? = some 3 ∧ dataPositions.getLast? = some 103 := by decide +kernel
theorem test_header_claim : (Packet.claim (from' 3 .all 0) none).header = [0x02, 0x03, 0x3F, 0, 0, 0, 0, 0, 0, 0, 0, 0] := by decide +kernel
theorem test_header_handover : (Packet.handover (from' 3 (.station 5) 0) .second 0x28 none).header =
    [0x01, 0x43, 0x05, 0, 0, 0, 0, 0, 0, 0x28, 0, 0] := by decide +kernel
theorem test_header_message : (Packet.message (from' 6 (.station 11) 41) true 1 (.good [7, 8])).header =
    [0x0C, 0x86, 0x0B, 41, 0, 2, 1, 0, 0, 0, 0, 0] := by decide +kernel
theorem test_header_ack : (Packet.ack (from' 11 (.station 6) 41) .queueFull true none).header =
    [0x10, 0x0B, 0x06, 41, 0, 0, 7, 1, 0, 0, 0, 0] := by decide +kernel
theorem test_line_short : let k := Packet.handover (from' 3 (.station 5) 0) .second 0x28 none
    judge k.cells = .readable k := by decide +kernel
theorem test_line_status : let k := Packet.status (from' 3 .all 0) (.good ⟨1, 2, 2, true, .receiving, 16, 8, 0xFFFF⟩)
    judge k.cells = .readable k := by decide +kernel
theorem test_line_palette : let k := Packet.palette (from' 3 .all 0) (.good (update 7))
    judge k.cells = .readable k := by decide +kernel
theorem test_line_return : let k := Packet.readReturn (from' 3 (.station 5) 9) 8 2 (.good [1, 0xFFFFFFFF])
    judge k.cells = .readable k := by decide +kernel
theorem test_line_corrected : let k := Packet.claim (from' 3 .all 0) none
    judge (k.cells.modify 20 (fun c => ⟨c.second, c.first⟩)) = .readable (.claim { from' 3 .all 0 with corrected := true } none) := by
  decide +kernel
theorem test_line_two_wrong : let k := Packet.claim (from' 3 .all 0) none
    judge ((k.cells.modify 20 (fun c => ⟨c.second, c.first⟩)).modify 60 (fun c => ⟨c.second, c.first⟩)) = .unreadable .headerFailed := by
  decide +kernel
theorem test_line_cut : let k := Packet.claim (from' 3 .all 0) none
    judge (k.cells.take 5) = .unreadable .startError ∧ judge (k.cells.take 6) = .unreadable .headerFailed ∧
      judge (k.cells.take 109) = .unreadable .headerFailed ∧
      judge (k.cells.take 110) = .readable (.claim (from' 3 .all 0) (some .endError)) := by decide +kernel

theorem test_first_cell : let k := Packet.claim (from' 3 .all 0) none
    judge (k.cells.modify 0 (fun c => ⟨.released, c.second⟩)) = .readable k ∧
      judge (k.cells.modify 0 (fun c => ⟨c.first, .high⟩)) = .readable k ∧
      judge (k.cells.modify 0 (fun c => ⟨c.first, .released⟩)) = .unreadable .startError := by decide +kernel
theorem test_comparator : let k := Packet.claim (from' 3 .all 0) none
    k.contention k.cells = none ∧ k.contention (k.cells.modify 0 (fun c => ⟨.high, c.second⟩)) = some .driveLow ∧
      k.contention (k.cells.modify 4 (fun _ => ⟨.low, .low⟩)) = some .driveHigh ∧
      k.contention (k.cells.modify 5 (fun _ => ⟨.high, .high⟩)) = some .driveLow ∧
      drivingRows k (k.cells.modify 5 (fun _ => ⟨.low, .released⟩)) = [.lifBeginDriving, .contention .driveLow] := by decide +kernel
theorem test_comparator_past_the_end : let k := Packet.claim (from' 3 .all 0) none
    drivingRows k [] = [.lifBeginDriving, .contention .driveLow] ∧
      drivingRows k k.cells.dropLast = [.lifBeginDriving, .contention .driveHigh] ∧
      drivingRows k (k.cells ++ [⟨.high, .high⟩]) = [.lifBeginDriving, .packetSent] := by decide +kernel
theorem test_sdo_bits : (List.range 18).map (streamBit (outStream (some (.refused .range)))) =
    bitsOfBytes [2, 2] ++ [false, false] ∧ (List.range 10).map (streamBit (outStream none)) = List.replicate 10 false := by decide +kernel
theorem test_sdo : let s := { member with cpe := { member.cpe with port := (Port.opened [0x40] []).clockAll [true] } }
    sdo s = some true ∧ sdo member = none ∧ s.cpe.port.row = some (.refusedFormat [true]) := by decide +kernel

/-! ### One step -/

/-- The state after a step, where there is one. -/
def after (s : State) (c : Instr) : Option State :=
  match step { s with pending := c :: s.pending } with
  | .next t => some t
  | .fault _ => none
  | .refused _ => none

theorem test_configure : (after State.reset (.configure 1 0 10 0 1 0)).map (fun t => (t.startup.life, t.startup.config)) =
    some (.standby, some record) := by decide +kernel
theorem test_go : (after standby .go).map (fun t => (t.startup.life, t.pos.state, t.lif.receiver)) =
    some (.joinPending, .listening, .draining) := by decide +kernel
theorem test_founding : (after pending .foundingSilenceExpiry).map (fun t => (t.startup.life, t.mem.view, t.pal.state, t.agr.known)) =
    some (.member, 2, .normal, true) := by decide +kernel
theorem test_claim : (after member .claimDelayExpiry).map (fun t => t.lif.driver) =
    some (.waiting ⟨.claim, .claim (from' 1 .all 0) none⟩) := by decide +kernel
theorem test_handover : (after member (.handoverHeard (from' 2 (.station 1) 0) .first 6 none)).map (fun t => (t.pos.state, t.lif.driver)) =
    some (.possessing, .waiting ⟨.status, .status (from' 1 .all 0) (.good (statusBody member))⟩) := by decide +kernel
theorem test_dropped : (after member (.handoverHeard (from' 2 (.station 2) 0) .first 4 none)).map
    (fun t => (t.startup.life, t.mem.view, t.cpe.events.map EventRecord.kind)) = some (.joinPending, 0, [.dropped]) := by decide +kernel
theorem test_halt : (after member (.claimHeard (from' 1 .all 0) none)).map (fun t => (t.startup.life, t.pos.state)) =
    some (.halted, .quiet) := by decide +kernel
theorem test_present : (after { member with frame := ⟨.confirming, true, 100, none⟩, agr := { member.agr with r := 4, c := 4 } } .framePulse).map
    (fun t => (t.agr.l, presentHigh t, t.frame.spacing)) = some (4, true, some 0) := by decide +kernel
theorem test_read_state_length : (after member .readState).map (fun t => t.cpe.held.map (fun r => r.bytes.length)) =
    some (some 115) := by decide +kernel
theorem test_install : (after (installing 8 0 1) (.replayHeard (from' 2 (.station 1) 4) (.good (update 9)))).map
    (fun t => (t.pal.state, t.pal.e, t.pal.store.length, t.cpe.events.map EventRecord.kind)) =
    some (.normal, 10, 1, [.paletteResynced]) := by decide +kernel

/-! ### Witnesses: states and operands that meet the hypotheses of each statement, at boundary values of its clauses -/

/-- A member in a pin reset. -/
def resetting : State := { member with startup := { member.startup with pinReset := true } }

/-- A member whose open transaction a reset has abandoned. -/
def abandoned : State := member.onCpe (fun c => { c with port := .abandoned })

theorem test_witness_IdleStep : member.pending = [] ∧ member.inReset = false ∧ resetting.inReset = true ∧ resetting.pending = [] := by
  decide +kernel
theorem test_witness_ResetValues : (readAttr State.reset 7).writer = .part ∧ readAttr State.reset 8 = ⟨0, .localPort⟩ := by decide +kernel
theorem test_witness_ResetInForce : (encodeFrame (.takeResult 0)).isSome = true ∧ resetting.inReset = true ∧
    abandoned.cpe.port = .abandoned ∧ abandoned.inReset = false := by decide +kernel
theorem test_witness_ResetEnd : member.startup.pinReset = false ∧ member.startup.powerReset = false ∧
    resetting.startup.pinReset = true ∧
    { member with startup := { member.startup with powerReset := true } }.startup.powerReset = true := by decide +kernel
theorem test_witness_TransactionOpen : member.inReset = false ∧ sdoDriven member = false ∧
    (Response.done (List.replicate 254 0)).bytes.length ≤ 255 ∧ [(0x40 : Byte)] = [] ++ 0x40 :: [] ∧ [true].length = 8 * 0 + 1 ∧
    8 * [(0x40 : Byte)].length ≤ (List.replicate 8 true).length := by decide +kernel
theorem test_witness_MalformedFrame : canTake member = true ∧ [true].length % 8 ≠ 0 ∧
    bytesOfBits (bitsOfBytes [0x15]) = some [0x15] ∧ decodeFrame [0x15] = none ∧
    bytesOfBits (bitsOfBytes [0x14, 0]) = some [0x14, 0] ∧ decodeFrame [0x14, 0] = some (.takeResult 0) ∧
    canTake resetting = false ∧ canTake abandoned = false ∧ bytesOfBits [true] = none := by decide +kernel
theorem test_witness_ReadCommands : canTake member = true ∧ canTake State.reset = true ∧ canTake pending = true ∧ canTake standby = true := by
  decide +kernel
theorem test_witness_ReadReadiness : 31 < (32#8).toNat ∧ (31 : Station).val = (31#8).toNat ∧ member.agr.entry 31 = none ∧
    member.agr.entry 1 = some ⟨some true, some ⟨0, 0, 0, .normal⟩⟩ ∧
    { member with agr := { member.agr with table := [(1, unheard none)] } }.agr.entry 1 = some ⟨none, none⟩ := by decide +kernel

/-- A queue of events. -/
def events (n : Nat) : State := member.onCpe (fun c => { c with events := List.replicate n { kind := .started } })

theorem test_witness_Events : (events 15).cpe.events.length < 16 ∧ 16 ≤ (events 16).cpe.events.length ∧
    (events 16).cpe.events = List.replicate 15 { kind := .started } ++ [{ kind := .started }] ∧ canTake (events 1) = true ∧
    (events 0).cpe.events = [] ∧ (events 1).cpe.events = { kind := .started } :: [] := by decide +kernel
theorem test_event_record_bytes :
    (⟨.requestFailed, some 2, none, some 9, some .check, none, true⟩ : EventRecord).bytes =
      [0x15, 0x8D, 2, 0, 0, 0, 0, 0, 9, 0x0A, 0, 0, 0, 0] ∧
    (⟨.lagging, some 31, some 0x0102030405, none, none, some 6, false⟩ : EventRecord).bytes =
      [0x0A, 0x13, 31, 1, 2, 3, 4, 5, 0, 0, 0, 0, 0, 6] := by decide +kernel
theorem test_witness_Configure : State.reset.startup.life = .unconfigured ∧ standby.startup.life ≠ .unconfigured ∧
    (configOf 1 1 1 2 15 1).isSome = true ∧ (configOf 0 0 60 16 0 0).isSome = true ∧ (configOf 0 0 60 0 0 0).isSome = true ∧
    [configOf 2 0 1 0 0 0, configOf 0 2 1 0 0 0, configOf 0 0 0 0 0 0, configOf 0 0 61 0 0 0, configOf 0 0 1 1 0 0,
     configOf 0 0 1 17 0 0, configOf 0 0 1 0 16 0, configOf 0 0 1 0 0 2].all Option.isNone = true := by decide +kernel
theorem test_witness_GoAndLeave : standby.startup.life = .standby ∧ member.startup.life ≠ .standby ∧
    member.startup.life = .member ∧ pending.startup.life = .joinPending ∧ canTake pending = true ∧
    standby.startup.life ≠ .member ∧ standby.startup.life ≠ .joinPending := by decide +kernel
theorem test_left_indication_holds_the_silence :
    let s := standby.onLif (fun l => { l with lineBusy := true })
    (after s .go).map (fun t => (t.lif.lineBusy, (tick t).pos.silence)) = some (true, 0) ∧
    (after standby .go).map (fun t => (tick t).pos.silence) = some 1 := by decide +kernel
theorem test_witness_Restart : State.reset.startup.life = .unconfigured ∧ member.startup.life ≠ .unconfigured := by decide +kernel

/-- A member in BUS HOLD. -/
def held : State :=
  { member with pos := { member.pos with state := .busHold, hold := some 0, fault := some .driveLow } }

theorem test_witness_AcknowledgeFault : canTake held = true ∧ held.pos.state = .busHold ∧
    ({ held with pos := { held.pos with state := .listening } }.pos.state ≠ .busHold ∧
      { held with pos := { held.pos with state := .listening } }.pos.fault ≠ none) ∧
    member.pos.state ≠ .busHold ∧ member.pos.fault = none := by decide +kernel

/-- A member with its three sequences. -/
def sequences (l r c : Seq) : State := { member with agr := { member.agr with l := l, r := r, c := c } }

theorem test_witness_Ready : canTake (sequences 3 5 4) = true ∧ pending.startup.life ≠ .member ∧ pending.startup.life ≠ .leaving ∧
    (sequences 3 5 4).startup.life = .member ∧ (5 : Seq) ≤ (sequences 3 5 4).agr.r ∧ (sequences 3 5 4).agr.l < (6 : Seq) ∧
    (sequences 3 5 4).agr.r < (6 : Seq) := by decide +kernel

/-- A member with records waiting in its outbound palette queue. -/
def submitted (n : Nat) : State := member.onPal (fun p => { p with outbound := List.replicate n { effective := 0, start := 0, entries := [0] } })

theorem test_witness_SubmitPalette : canTake (submitted 3) = true ∧ (submitted 3).startup.life = .member ∧
    (submitted 3).pal.state = .normal ∧ (submitted 3).pal.outbound.length < 4 ∧ 4 ≤ (submitted 4).pal.outbound.length ∧
    canTake (submitted 4) = true ∧ (448#16).toNat + (List.replicate 64 (0 : Value)).length ≤ 512 ∧
    ¬ (449#16).toNat + (List.replicate 64 (0 : Value)).length ≤ 512 ∧ ¬ 1 ≤ ([] : List Value).length ∧
    pending.startup.life ≠ .member := by decide +kernel
theorem test_witness_ReadPalette : canTake member = true ∧ 32 < (33#8).toNat ∧ 1 ≤ (32#8).toNat ∧ (32#8).toNat ≤ 32 ∧
    (480#16).toNat + (32#8).toNat ≤ 512 ∧ 512 < (481#16).toNat + (32#8).toNat := by decide +kernel

/-- A member with messages waiting in both queues. -/
def queued (n k : Nat) : State :=
  member.onMsg (fun g => { g with priority := List.replicate n (message 0), bulk := List.replicate k (message 0) })

theorem test_witness_SendMessage : canTake (queued 3 7) = true ∧ pending.startup.life ≠ .member ∧ (queued 3 7).startup.life = .member ∧
    inSet 31 (queued 3 7).mem.view = false ∧ (1 : Station) = (queued 3 7).number ∧ ¬ (32#8 = 0x3F ∨ (32#8).toNat < 32) ∧
    inSet 2 (queued 3 7).mem.view = true ∧ (2 : Station) ≠ (queued 3 7).number ∧ (2 : Station).val = (2#8).toNat ∧
    (List.replicate 16 (0 : Byte)).length ≤ 16 ∧ (List.replicate 128 (0 : Byte)).length ≤ 128 ∧ (3#8).toNat ≤ 3 ∧ ¬ (4#8).toNat ≤ 3 ∧
    (queued 3 7).msg.priority.length < 4 ∧ (queued 3 7).msg.bulk.length < 8 ∧ canTake (queued 4 8) = true ∧
    4 ≤ (queued 4 8).msg.priority.length ∧ 8 ≤ (queued 4 8).msg.bulk.length := by decide +kernel

/-- A member with delivered messages. -/
def delivered (n : Nat) : State :=
  member.onMsg (fun g => { g with inbound := List.replicate n { source := 2, stream := 0, broadcast := false, payload := [1] } })

theorem test_witness_TakeMessage : canTake (delivered 1) = true ∧ (delivered 0).msg.inbound = [] ∧
    (delivered 1).msg.inbound = { source := 2, stream := 0, broadcast := false, payload := [1] } :: [] := by decide +kernel
theorem test_witness_ReadAttribute : canTake member = true ∧ 16 < (17#8).toNat ∧ (48#8).toNat + (16#8).toNat ≤ 64 ∧
    64 < (49#8).toNat + (16#8).toNat ∧ 1 ≤ (16#8).toNat := by decide +kernel
theorem test_witness_PartAttributes : withinCapacity member = true ∧ storeAgrees member = true := by decide +kernel
theorem test_witness_WriteAttribute : canTake standby = true ∧ State.reset.startup.life = .unconfigured ∧
    standby.startup.life ≠ .unconfigured ∧ (7#8).toNat < 8 ∧ 63 < (64#8).toNat ∧ 8 ≤ (8#8).toNat ∧ (63#8).toNat ≤ 63 := by
  decide +kernel

/-- A member with remote requests. -/
def requesting (n : Nat) (st : RequestState) : State :=
  member.onAtt (fun a => { a with
    requests := (List.range n).map (fun i => { request 4 st with tag := byte (5 + i) }), tagCounter := 5 })

theorem test_witness_RemoteCommands : canTake (requesting 3 .queued) = true ∧ pending.startup.life ≠ .member ∧
    (requesting 3 .queued).startup.life = .member ∧ 31 < (32#8).toNat ∧ inSet 31 (requesting 3 .queued).mem.view = false ∧
    (1 : Station) = (requesting 3 .queued).number ∧ inSet 2 (requesting 3 .queued).mem.view = true ∧
    (2 : Station) ≠ (requesting 3 .queued).number ∧ (requesting 3 .queued).att.requests.length < 4 ∧
    4 ≤ (requesting 4 .queued).att.requests.length ∧ canTake (requesting 4 .queued) = true ∧ ¬ (64#8).toNat ≤ 63 ∧
    (48#8).toNat + (16#8).toNat ≤ 64 := by decide +kernel
theorem test_witness_TakeResult : canTake (requesting 1 .queued) = true ∧
    (∀ r ∈ (requesting 1 .queued).att.requests, r.tag ≠ 6) ∧
    (requesting 1 .queued).att.find 5 = some { request 4 .queued with tag := 5 } ∧
    (requesting 1 (.awaitingReturn 0)).att.find 5 = some (request 4 (.awaitingReturn 0)) ∧
    (requesting 1 (.done [7])).att.find 5 = some (request 4 (.done [7])) ∧
    (requesting 1 (.failed .busy)).att.find 5 = some (request 4 (.failed .busy)) := by decide +kernel

/-- A member handing over to station 2. -/
def handing (a : Attempt) (n : Station) (v : StationSet) : State :=
  { member with pos := { member.pos with state := .handingOver, turnaround := some 300, handover := some ⟨a, n, v⟩ }
                mem := { member.mem with view := v } }

/-- A member whose receiver waits in DRAINING. -/
def draining : State := member.onLif (fun l => { l with receiver := .draining })

theorem test_witness_Activity : member.inReset = false ∧ member.lif.receiver = .armed ∧
    (handing .first 2 6).pos.state = .handingOver ∧ (handing .first 2 6).pos.turnaround ≠ none ∧
    (awaiting .message 9).pos.slot ≠ none ∧ standby.lif.receiver ≠ .armed ∧ canRearm member = true ∧ canRearm standby = false ∧
    canRearm draining = true ∧ draining.lif.receiver = .draining ∧ canHear member = true ∧
    flawOf (.claim (from' 2 .all 0) (some .endError)) = some .endError ∧
    flawOf (.status (from' 2 .all 0) (.failed .lengthInvalid)) = some .lengthInvalid := by decide +kernel

/-- A member with a packet handed to its LIF. -/
def waiting (p : Possession) (tx : Tx) : State :=
  { member with lif := { member.lif with driver := .waiting tx }, pos := { member.pos with state := p } }

theorem test_witness_Driving : let s := waiting .possessing ⟨.claim, .claim (from' 1 .all 0) none⟩
    s.inReset = false ∧ s.lif.driver = .waiting ⟨.claim, .claim (from' 1 .all 0) none⟩ ∧ s.pos.turnaround = none ∧
    member.lif.driver = .released := by decide +kernel
theorem test_witness_Unreadable : canHear member = true ∧ member.startup.life ≠ .halted ∧ member.pos.slot = none ∧
    member.pos.turnaround = none ∧ member.inView = true ∧ pending.inView = false ∧ canHear pending = true ∧
    (installing 8 1 2).pal.state = .receiving ∧ canHear (installing 8 1 2) = true := by decide +kernel
/-- A member of the wall {1, 2} that owes station 2 an answer with one replay, the packet before `next` sent. -/
def answering (next : Nat) : State :=
  (driving .possessing .answer (.replay (from' 1 (.station 2) 0) (.good (update 0)))).onPal
    (fun p => { p with owed := some ⟨2, 0⟩, answer := some ⟨0, 1, 1, next⟩, store := [update 0] })

/-- A message that seeks no reply. -/
def plain : OutMessage := { message 0 with ack := false }

/-- A member that drives the head of its priority and bulk queues, a message that seeks no reply. -/
def drivingPlain (cls : TxClass) : State :=
  (driving .possessing cls (.message (from' 1 (.station 2) 9) false 0 (.good [1]))).onMsg
    (fun g => { g with priority := [plain], bulk := [plain] })

theorem test_witness_PacketSent : member.lif.driver.driven = none ∧
    (driving .replying .reply (.ack (from' 1 (.station 2) 3) .ok false none)).inReset = false ∧
    (driving .possessing .claim (.claim (from' 1 .all 0) none)).lif.driver = .driving ⟨.claim, .claim (from' 1 .all 0) none⟩ ∧
    (driving .possessing .commit (.commit (from' 1 .all 0) (.good ⟨1, 6⟩))).inView = true ∧
    (sentBy ⟨.answer, .replay (from' 1 (.station 2) 0) (.good (update 0))⟩ (answering 7)).pal.answer = some ⟨0, 1, 1, 7⟩ ∧
    7 + 1 < 8 + 1 ∧ (sentBy ⟨.answer, .replay (from' 1 (.station 2) 0) (.good (update 0))⟩ (answering 8)).pal.answer =
      some ⟨0, 1, 1, 8⟩ ∧ 8 + 1 ≤ 8 + 1 ∧ (answering 8).lif.driver =
      .driving ⟨.answer, .replay (from' 1 (.station 2) 0) (.good (update 0))⟩ ∧
    (driving .possessing .palette (.palette (from' 1 .all 0) (.good (update 0)))).inView = true ∧
    (driving .possessing .leave (.leave (from' 1 .all 0) none)).mem.view &&& ~~~ (1#32 <<< 1) ≠ 0 ∧
    (drivingPlain .priority).msg.priority = plain :: [] ∧ (drivingPlain .bulk).msg.bulk = plain :: [] ∧ plain.ack = false := by
  decide +kernel
theorem test_witness_LeaveComplete : let s := driving .possessing .leaveHandover (.handover (from' 1 (.station 2) 0) .first 4 none)
    let u := { driving .possessing .leave (.leave (from' 1 .all 0) none) with mem := { view := 2, cursor := 1, joinPending := false } }
    s.inReset = false ∧ s.lif.driver = .driving ⟨.leaveHandover, .handover (from' 1 (.station 2) 0) .first 4 none⟩ ∧
      u.inReset = false ∧ u.lif.driver = .driving ⟨.leave, .leave (from' 1 .all 0) none⟩ ∧
      u.mem.view &&& ~~~ (1#32 <<< u.number.val) = 0 := by decide +kernel
theorem test_witness_SlotPackets :
    let invite := driving .possessing .invite (.invite (from' 1 (.station 3) 0) none)
    let ask := driving .possessing .snapshotRequest (.snapshotRequest (from' 1 (.station 2) 1) none)
    let read := driving .possessing .request (.read (from' 1 (.station 2) 5) 8 1 none)
    let again := driving .possessing .retry (.message (from' 1 (.station 2) 9) true 0 (.good [1]))
    let first := (driving .possessing .priority (.message (from' 1 (.station 2) 9) true 0 (.good [1]))).onMsg
      (fun g => { g with priority := [message 0] })
    let second := (driving .possessing .bulk (.message (from' 1 (.station 2) 9) true 0 (.good [1]))).onMsg
      (fun g => { g with bulk := [message 0] })
    [invite, ask, read, again, first, second].all (fun s => !s.inReset && s.lif.driver.isDriving) = true ∧
    first.msg.priority = message 0 :: [] ∧ second.msg.bulk = message 0 :: [] ∧ (message 0).ack = true := by decide +kernel

/-- A member whose table shows R at each of the two stations, with a wait count. -/
def wall (own other : Seq) (wait : Nat) : State :=
  { member with agr := { member.agr with table := [(1, heard own), (2, heard other)], wait := wait } }

/-- A record in DROP LATE mode. -/
def dropLate : ConfigRecord := { record with policy := .dropLate }

theorem test_witness_CommitDecision : (wall 0 0 10).agr.decision record 6 = none ∧
    (wall 2 3 0).agr.decision record 6 = some ⟨2, 6⟩ ∧ (wall 0 3 9).agr.decision dropLate 6 = none ∧
    (wall 0 3 10).agr.decision dropLate 6 = some ⟨3, 4⟩ ∧ (wall 0 3 10).agr.decision record 6 = none ∧
    { (wall 2 3 0).agr with known := false }.decision record 6 = none := by decide +kernel
theorem test_witness_StatusSent : let s := driving .possessing .status (.status (from' 1 .all 0) (.good (statusBody member)))
    let u := s.onPal (fun p => { p with owed := some ⟨9, 0⟩ })
    s.inReset = false ∧ s.lif.driver = .driving ⟨.status, .status (from' 1 .all 0) (.good (statusBody member))⟩ ∧
    s.startup.config = some record ∧ s.inView = true ∧ inSet 1 s.mem.view = true ∧
    ¬ 1 ≤ ((statusBody member).e - s.pal.e).toNat ∧ s.pal.owed = none ∧ u.pal.answer = none ∧ inSet 9 u.mem.view = false ∧
    inSet 2 u.mem.view = true := by decide +kernel

/-- A member that possesses, its STATUS packet granted before. -/
def possessing (f : State → State) : State :=
  f { member with pos := { member.pos with state := .possessing, batch := { Batch.idle with statusGranted := true } } }

/-- A member that may declare its own bank authoritative. -/
def alone : State := possessing (fun s =>
  { s with
    mem := { s.mem with view := 2 }
    agr := { s.agr with table := [(1, { participant := some true, report := some ⟨0, 0, 0, .resync⟩ })] }
    pal := { s.pal with state := .resync, credits := [(1, 0)] } })

/-- The class a choice grants. -/
def granted (s : State) : Option TxClass := (choose s).lif.driver.tx.map Tx.cls

theorem test_witness_Scheduler : let s := possessing id
    s.startup.config = some record ∧ s.inView = true ∧ inSet s.number s.mem.view = true ∧ answerAgrees s = true ∧
    s.pos.batch.leaving = false ∧ s.pos.batch.statusGranted = true ∧ answerAgrees (answering 8) = true ∧ answerAgrees alone = true ∧
    inSet alone.number alone.mem.view = true ∧ alone.startup.config = some record ∧ alone.pos.batch.statusGranted = true ∧
    (member.onPos (fun p => { p with state := .possessing })).pos.batch.statusGranted = false := by decide +kernel
theorem test_scheduler_classes : granted (member.onPos (fun p => { p with state := .possessing })) = some .status ∧
    granted (possessing id) = some .invite ∧
    granted (possessing (fun s => s.onPos (fun p => { p with batch := { p.batch with inviteSent := true } }))) = some .handover ∧
    granted (possessing (fun s => s.onPos (fun p => { p with batch := { p.batch with count := 6 } }))) = some .handover ∧
    granted (possessing (fun s => s.onAgr (fun a => { a with pendingCommit := some ⟨1, 6⟩ }))) = some .commit ∧
    granted (possessing (fun s => s.onPal (fun p => { p with owed := some ⟨2, 0⟩ }))) = some .answer ∧
    granted (possessing (fun s => s.onAtt (fun a => { a with returns := [⟨9, 0, 0, 1⟩, ⟨2, 0, 0, 1⟩] }))) = some .readReturn ∧
    granted (possessing (fun s => s.onPal (fun p => { p with state := .resync }))) = some .snapshotRequest ∧
    granted (possessing (fun s => s.onMsg (fun g => { g with retry := some (message 1), priority := [message 0] }))) = some .retry ∧
    granted (possessing (fun s => s.onMsg (fun g => { g with priority := [message 0], bulk := [message 0] }))) = some .priority ∧
    granted (possessing (fun s => s.onPal (fun p => { p with outbound := [{ effective := 7, start := 0, entries := [1] }] }))) = some .palette ∧
    granted (possessing (fun s => s.onAtt (fun a => { a with requests := [request 0 .queued] }))) = some .request ∧
    granted (possessing (fun s => s.onMsg (fun g => { g with bulk := [message 0] }))) = some .bulk := by decide +kernel
theorem test_scheduler_alone : (choose alone).pal.state = .normal ∧
    (choose alone).cpe.events = [⟨.paletteResynced, some 1, some 0, none, some .self, none, false⟩] := by decide +kernel
theorem test_scheduler_stale :
    (choose (possessing (fun s => { s with
      agr := { s.agr with pendingCommit := some ⟨1, 6⟩ }, att := { s.att with returns := [⟨9, 0, 0, 1⟩, ⟨2, 0, 0, 1⟩] } }))).att.returns =
      [⟨2, 0, 0, 1⟩] := by decide +kernel
theorem test_witness_Contention : let s := driving .possessing .claim (.claim (from' 1 .all 0) none)
    s.inReset = false ∧ s.lif.driver = .driving ⟨.claim, .claim (from' 1 .all 0) none⟩ ∧ s.startup.config = some record ∧
    s.pal.answer = none ∧ (answering 8).inReset = false ∧ (answering 8).lif.driver.isDriving = true ∧
    (answering 8).pal.answer = some ⟨0, 1, 1, 8⟩ ∧ member.lif.driver.driven = none ∧
    [Level.low, .high][1]? = some .high ∧ [Level.low, .released][1]? = some .released ∧ [Level.low][1]? = none := by decide +kernel
theorem test_witness_Window : canHear (handing .first 2 6) = true ∧ (handing .first 2 6).pos.state = .handingOver ∧
    (handing .first 2 6).pos.turnaround ≠ none ∧ standby.lif.receiver = .off ∧ draining.lif.receiver = .draining ∧
    (driving .possessing .claim (.claim (from' 1 .all 0) none)).lif.driver.driven ≠ none := by decide +kernel

/-- A station that has halted. -/
def halted : State := { (withLife .halted member) with mem := Mem.reset 1, pos := Pos.reset }

theorem test_witness_Halted : canHear halted = true ∧ halted.startup.life = .halted ∧ halted.pos.turnaround = none ∧
    halted.pos.slot = none ∧ halted.inView = false := by decide +kernel
theorem test_halted_hears : (after halted (.handoverHeard (from' 2 (.station 1) 0) .first 6 (some .endError))).map
    (fun t => (t.startup.life, t.pos.state, t.lif.lastError)) =
    some (.halted, .quiet, some (.readable false (some .endError))) := by decide +kernel
theorem test_rearm_readable : after (member.onLif (fun l => { l with receiver := .delimiter, lineBusy := true }))
      (.receiverRearm (some (.readable (.handover (from' 2 (.station 2) 0) .first 4 (some .endError))))) =
    after (member.onLif (fun l => { l with receiver := .armed, lineBusy := false, released := some Config.rearmInterval }))
      (.handoverHeard (from' 2 (.station 2) 0) .first 4 (some .endError)) := by decide +kernel
theorem test_witness_takesPacket : takesPacket (from' 2 .all 0) member = true ∧ takesPacket (from' 2 (.station 1) 4) held = true ∧
    takesPacket (from' 2 .all 0) pending = true ∧ listensTo (from' 2 (.station 1) 0) member = true := by decide +kernel
theorem test_witness_OwnNumber : canHear member = true ∧ member.startup.life ≠ .halted ∧
    (Packet.claim (from' 1 .all 0) none).head.source = member.number ∧ member.inView = true ∧ pending.inView = false ∧
    canHear pending = true ∧ pending.startup.life ≠ .halted ∧ pending.number = 1 := by decide +kernel
theorem test_witness_HandoverMembership : takesPacket (from' 2 (.station 2) 0) member = true ∧
    (from' 2 (.station 2) 0).dest ≠ .station member.number ∧ recordsMatchView member = true ∧ member.inView = true ∧
    inSet member.number 6 = true ∧ inSet member.number 4 = false ∧ takesPacket (from' 2 (.station 2) 0) pending = true ∧
    recordsMatchView pending = true ∧ pending.startup.life = .joinPending ∧ pending.startup.config = some record ∧
    takesPacket (from' 2 (.station 2) 0) (member.setLife .leaving) = true ∧ held.pos.state = .busHold ∧ held.pos.hold ≠ none ∧
    takesPacket (from' 2 (.station 2) 0) held = true ∧ held.startup.life = .member ∧
    (from' 2 (.station 1) 0).dest = .station member.number ∧ takesPacket (from' 2 (.station 1) 0) (possessing id) = true ∧
    (possessing id).pos.state ≠ .listening := by decide +kernel

/-- A member of the wall {1, 2, 3} that holds a record for each of the other two in every queue. -/
def crowded : State :=
  { member with
    mem := { member.mem with view := 14 }
    agr := { member.agr with table := [(1, heard 0), (2, heard 0), (3, heard 0)], inStep := 14 }
    pal := { member.pal with credits := [(1, 0), (2, 4), (3, 5)], owed := some ⟨2, 0⟩ }
    att := { member.att with
      requests := [request 1 .queued, { request 1 .queued with tag := 6, target := 3 }]
      returns := [⟨2, 0, 8, 1⟩, ⟨3, 0, 8, 1⟩] }
    msg := { member.msg with
      retry := some (message 1), priority := [message 0, { message 0 with tag := 7, dest := .station 3 }]
      bulk := [{ message 0 with dest := .all }], credits := [(1, 0), (2, 4), (3, 5)], filter := [(2, 9), (3, 8)] } }

theorem test_witness_MembersLost : takesPacket (from' 3 .all 0) crowded = true ∧ crowded.inView = true ∧
    recordsMatchView crowded = true ∧ inSet crowded.number 26 = true ∧ inSet 2 (crowded.mem.view &&& ~~~ (26#32)) = true ∧
    inSet 4 (26#32 &&& ~~~ crowded.mem.view) = true := by decide +kernel
theorem test_members_lost : let att := crowded.att.removeMembers 4
    let msg := crowded.msg.removeMembers 4
    (crowded.pal.removeMembers 4).owed = none ∧ att.1.requests.map Request.state = [.failed .targetLost, .queued] ∧
    att.1.returns = [⟨3, 0, 8, 1⟩] ∧ att.2.map EventRecord.tag = [some 5] ∧ msg.1.retry = none ∧
    msg.1.priority.map OutMessage.tag = [7] ∧ msg.1.bulk.length = 1 ∧ msg.1.filter = [(3, 8)] ∧
    msg.2.map EventRecord.tag = [some 9, some 9] := by decide +kernel
theorem test_witness_HandoverPossession : listensTo (from' 2 (.station 1) 0) member = true ∧ inSet member.number 6 = true ∧
    member.startup.config = some record ∧ member.inView = true ∧ listensTo (from' 2 (.station 1) 0) (member.setLife .leaving) = true ∧
    listensTo (from' 2 (.station 1) 0) pending = true ∧ pending.startup.life = .joinPending := by decide +kernel
theorem test_witness_Invite : takesPacket (from' 2 (.station 1) 0) pending = true ∧ pending.startup.config = some record ∧
    pending.startup.life = .joinPending ∧ pending.mem.joinPending = true ∧ pending.pos.state = .listening ∧
    ¬ (member.startup.life = .joinPending) := by decide +kernel
theorem test_witness_Join : let s := awaiting .invite 0
    canHear s = true ∧ s.startup.life ≠ .halted ∧ s.pos.state = .awaitingReply ∧
    s.pos.slot = some ⟨2, 0, .invite, false, 300⟩ ∧ (from' 2 (.station 1) 0).source ≠ s.number := by decide +kernel
/-- A member with records in its pending store. -/
def stored (n : Nat) : State := member.onPal (fun p => { p with store := List.replicate n (update 0) })

theorem test_witness_Status : takesPacket (from' 2 .all 0) member = true ∧ member.inView = true ∧ inSet 2 member.mem.view = true ∧
    recordsMatchView member = true ∧ member.agr.c < (1 : Seq) ∧ ¬ member.agr.c < (0 : Seq) ∧ member.agr.known = true ∧
    inSet 3 member.mem.view = false ∧ pending.inView = false ∧ (heardBy (.status (from' 2 .all 0)
      (.good ⟨0, 0, 0, true, .normal, 16, 8, 1⟩)) member).pal.state = .normal ∧
    1 ≤ ((1 : Serial) - member.pal.e).toNat ∧ ((32767 : Serial) - member.pal.e).toNat ≤ 32767 := by decide +kernel

/-- A member that lags, in or out of the in-step set's knowledge. -/
def lagging (known : Bool) (own : Option Report) : State :=
  member.onAgr (fun a => { a with
    agreement := .lagging, known := known, inStep := 4, table := [(1, ⟨some true, own⟩), (2, heard 0)] })

theorem test_taken_back_by_own_status :
    ((lagging true none).agr.hearStatus 1 6 1 ⟨0, 0, 0, true, .normal, 16, 8, 0⟩).1.agreement = .inStep ∧
    ((lagging true none).agr.hearStatus 1 6 1 ⟨0, 0, 0, true, .normal, 16, 8, 0⟩).2 =
      [{ kind := .inStep, sequence := some 0 }] := by decide +kernel
theorem test_taken_back_by_rebuild :
    (after (lagging false (some ⟨0, 0, 0, .normal⟩)) (.statusHeard (from' 2 .all 0) (.good ⟨0, 0, 0, true, .normal, 16, 8, 0⟩))).map
      (fun t => (t.agr.agreement, t.agr.inStep, t.cpe.events.map EventRecord.kind)) = some (.inStep, 6, [.inStep]) := by decide +kernel
theorem test_report : reportOf record (stored 15) = ⟨0, 0, 0, true, .normal, 1, 8, 0⟩ := by decide +kernel
theorem test_witness_Commit : takesPacket (from' 2 .all 0) member = true ∧ member.inView = true ∧ (0 : Seq) ≤ member.agr.c ∧
    member.agr.c < (1 : Seq) ∧ member.agr.agreement = .inStep ∧ inSet member.number 4 = false ∧ inSet member.number 6 = true ∧
    takesPacket (from' 2 .all 0) (member.onAgr (fun a => { a with agreement := .lagging })) = true := by decide +kernel

theorem test_witness_OutOfView : takesPacket (from' 2 .all 0) pending = true ∧ pending.inView = false ∧
    takesPacket (from' 2 (.station 1) 4) pending = true := by decide +kernel
theorem test_witness_Palette : takesPacket (from' 2 .all 0) (stored 15) = true ∧ (stored 15).inView = true ∧
    (stored 15).pal.state = .normal ∧ (update 0).start.toNat + (update 0).entries.length ≤ 512 ∧
    512 < (update 0).start.toNat + [(0 : Color), 0, 0].length ∧ (update 0).serial = (stored 15).pal.e ∧
    (update 1).serial ≠ (stored 15).pal.e ∧ (stored 15).pal.store.length < 16 ∧ 16 ≤ (stored 16).pal.store.length ∧
    takesPacket (from' 2 .all 0) (stored 16) = true ∧ (installing 1 0 0).pal.state ≠ .normal := by decide +kernel
theorem test_witness_SnapshotRequest : takesPacket (from' 2 (.station 1) 7) member = true ∧ member.startup.life = .member ∧
    member.pos.state = .listening ∧ member.pal.state = .normal ∧ member.pal.owed = none ∧
    takesPacket (from' 2 (.station 1) 7) (member.onPal (fun p => { p with owed := some ⟨2, 7⟩ })) = true ∧
    takesPacket (from' 2 (.station 1) 7) (installing 1 0 0) = true ∧ (installing 1 0 0).pal.state ≠ .normal := by decide +kernel

/-- A member that awaits the answer of station 2 and has heard no part of it. -/
def asking : State :=
  member.onPal (fun p => { p with state := .resync, candidate := some 2, outstanding := true, requestTag := 4, wait := some 0 })

/-- The same in another palette state. -/
def askingIn (p : PaletteState) : State := asking.onPal (fun q => { q with state := p })

theorem test_installing_ends : (after asking (.snapshotHeard (from' 2 (.station 1) 4) 3 (.failed .payloadFailed))).map
      (fun t => (t.pal.outstanding, t.pal.state)) = some (false, .resync) ∧
    (after (installing 3 0 2) (.snapshotHeard (from' 2 (.station 1) 4) 4 (.good ⟨none, List.replicate 64 0⟩))).map
      (fun t => (t.pal.outstanding, t.pal.state, t.pal.install)) = some (false, .resync, none) ∧
    (after (installing 3 0 2) (.snapshotHeard (from' 2 (.station 1) 4) 3 (.good ⟨none, List.replicate 64 5⟩))).map
      (fun t => (t.pal.installing.length, t.pal.bank, (tick t).pal.bank.read 192)) = some (64, [], 5) := by decide +kernel
theorem test_witness_Snapshot : takesPacket (from' 2 (.station 1) 4) asking = true ∧ asking.inView = true ∧ asking.pal.outstanding = true ∧
    asking.pal.candidate = some 2 ∧ asking.pal.requestTag = 4 ∧ (List.replicate 64 (0 : Color)).length = 64 ∧
    asking.pal.state = .resync ∧ (16#8).toNat ≤ 16 ∧ takesPacket (from' 2 (.station 1) 4) (installing 7 0 0) = true ∧
    takesPacket (from' 2 (.station 1) 4) (installing 1 0 16) = true ∧ 16 < (17#8).toNat ∧ (0#8).toNat ≠ 7 ∧
    member.pal.state = .normal ∧ takesPacket (from' 2 (.station 1) 4) (askingIn .normal) = true ∧
    (askingIn .normal).pal.outstanding = true ∧ (askingIn .normal).pal.candidate = some 2 ∧
    (installing 7 0 0).pal.install = some ⟨3, 10, 0, 7, 0⟩ ∧ (installing 1 0 16).pal.install = some ⟨3, 10, 16, 1, 0⟩ := by
  decide +kernel
theorem test_witness_NotOfTheAnswer : takesPacket (from' 2 (.station 1) 4) member = true ∧ member.pal.outstanding = false ∧
    takesPacket (from' 3 (.station 1) 4) asking = true ∧ asking.pal.candidate ≠ some 3 ∧
    takesPacket (from' 2 (.station 3) 4) asking = true ∧ Dest.station 3 ≠ .station asking.number ∧ (5 : Byte) ≠ asking.pal.requestTag ∧
    takesPacket (from' 2 (.station 1) 4) pending = true ∧ pending.inView = false := by decide +kernel
theorem test_witness_Replay : takesPacket (from' 2 (.station 1) 4) (installing 8 15 16) = true ∧
    (installing 8 15 16).pal.state = .receiving ∧ (installing 8 15 16).pal.install = some ⟨3, 10, 16, 8, 15⟩ ∧
    (update 9).serial = (10 : Serial) - BitVec.ofNat 16 16 + BitVec.ofNat 16 15 ∧
    (installing 8 0 2).pal.install = some ⟨3, 10, 2, 8, 0⟩ ∧ (update 8).serial = (10 : Serial) - BitVec.ofNat 16 2 + BitVec.ofNat 16 0 := by
  decide +kernel
theorem test_witness_Message : takesPacket (from' 2 (.station 1) 9) (delivered 7) = true ∧ (delivered 7).inView = true ∧
    (delivered 7).startup.config = some record ∧ record.openStreams.getLsbD 0 = true ∧ record.openStreams.getLsbD 3 = false ∧
    (delivered 7).msg.inbound.length < 8 ∧ 8 ≤ (delivered 8).msg.inbound.length ∧
    takesPacket (from' 2 (.station 1) 9) (delivered 8) = true ∧ inSet 2 (delivered 7).mem.view = true ∧
    inSet 31 (delivered 7).mem.view = false ∧ takesPacket (from' 31 (.station 1) 9) (delivered 7) = true ∧
    Table.get? (member.onMsg (fun g => { g with filter := [(2, 9)] })).msg.filter 2 = some 9 ∧
    (delivered 7).pos.state = .listening := by decide +kernel
theorem test_witness_ReadAndWrite : takesPacket (from' 2 (.station 1) 9) member = true ∧ member.startup.life = .member ∧
    (48#8).toNat + (16#8).toNat ≤ 64 ∧ ¬ (49#8).toNat + (16#8).toNat ≤ 64 ∧ member.att.returns.length < 4 ∧
    4 ≤ (member.onAtt (fun a => { a with returns := List.replicate 4 ⟨2, 1, 0, 1⟩ })).att.returns.length ∧ (31#8).toNat < 32 ∧
    63 < (64#8).toNat ∧ 32 ≤ (32#8).toNat ∧ (63#8).toNat ≤ 63 ∧ member.pos.state = .listening := by decide +kernel
theorem test_witness_Return : takesPacket (from' 2 (.station 1) 5) (requesting 1 (.awaitingReturn 0)) = true ∧
    (requesting 1 (.awaitingReturn 0)).inView = true ∧
    (requesting 1 (.awaitingReturn 0)).att.find 5 = some (request 4 (.awaitingReturn 0)) ∧
    (request 4 (.awaitingReturn 0)).target = 2 ∧ (request 4 (.awaitingReturn 0)).kind = .read 8 1 ∧
    (requesting 1 (.awaitingReturn 0)).inReset = false ∧ (requesting 1 .queued).att.find 6 = none := by decide +kernel
theorem test_witness_MessageSlot : (awaiting .message 9).pos.state = .awaitingReply ∧
    (awaiting .message 9).pos.slot = some ⟨2, 9, .message, false, 300⟩ ∧
    ((awaiting .message 9).onMsg (fun g => { g with held := some (message 2) })).msg.held = some (message 2) ∧
    ((awaiting .message 9).onMsg (fun g => { g with retry := some (message 3) })).msg.held = none ∧
    ((awaiting .message 9).onMsg (fun g => { g with retry := some (message 3) })).msg.retry = some (message 3) ∧
    (awaiting .message 9).inReset = false ∧ canHear (awaiting .message 9) = true ∧ (awaiting .message 9).startup.life ≠ .halted ∧
    (from' 2 (.station 1) 9).source ≠ (awaiting .message 9).number := by decide +kernel
theorem test_witness_RequestSlot : let s := (awaiting (.request 5) 5).onAtt (fun a => { a with requests := [request 4 .queued] })
    let u := (awaiting (.request 5) 5).onAtt (fun a => { a with requests := [request 3 .queued] })
    s.pos.state = .awaitingReply ∧ s.pos.slot = some ⟨2, 5, .request 5, false, 300⟩ ∧ s.att.find 5 = some (request 4 .queued) ∧
    u.att.find 5 = some (request 3 .queued) ∧ s.inReset = false ∧ canHear s = true ∧ s.startup.life ≠ .halted ∧
    (from' 2 (.station 1) 5).source ≠ s.number := by decide +kernel
theorem test_witness_OtherSlots : let s := awaiting .snapshotRequest 4
    s.inReset = false ∧ s.pos.state = .awaitingReply ∧ s.pos.slot = some ⟨2, 4, .snapshotRequest, false, 300⟩ ∧ canHear s = true ∧
    s.startup.life ≠ .halted ∧ s.inView = true ∧ (from' 2 (.station 1) 4).source ≠ s.number ∧
    (awaiting .invite 0).pos.slot = some ⟨2, 0, .invite, false, 300⟩ ∧
    (Packet.claim (from' 2 .all 0) none).head.source ≠ s.number ∧
    ((awaiting (.request 5) 5).onAtt (fun a => { a with requests := [request 4 .queued] })).att.find 5 = some (request 4 .queued) ∧
    ((awaiting .message 9).onMsg (fun g => { g with held := some (message 3) })).msg.held = some (message 3) ∧
    { s with pos := { s.pos with slot := some ⟨2, 4, .snapshotRequest, true, 300⟩ } }.pos.slot =
      some ⟨2, 4, .snapshotRequest, true, 300⟩ := by decide +kernel
theorem test_conflict : (after (awaiting .invite 0) (.claimHeard (from' 2 .all 0) none)).map (fun t => (t.pos.state, t.pos.slot)) =
    some (.listening, none) := by decide +kernel
theorem test_witness_Turnaround : (handing .first 1 2).startup.config = some record ∧ (handing .first 1 2).inReset = false ∧ (handing .first 1 2).pos.state = .handingOver ∧
    (handing .first 1 2).pos.turnaround ≠ none ∧ (handing .first 1 2).pos.handover = some ⟨.first, 1, 2⟩ ∧
    (1 : Station) = (handing .first 1 2).number ∧ (2 : Station) ≠ (handing .first 2 6).number ∧
    (handing .second 2 6).pos.handover = some ⟨.second, 2, 6⟩ ∧ inSet 1 ((handing .second 2 6).mem.view &&& ~~~ (1#32 <<< 2)) = true ∧
    successor 1 ((handing .second 2 6).mem.view &&& ~~~ (1#32 <<< 2)) = some 1 ∧
    inSet 3 ((handing .second 2 14).mem.view &&& ~~~ (1#32 <<< 2)) = true := by decide +kernel
theorem test_witness_Timers : member.inReset = false ∧ member.inView = true ∧ member.pos.state = .listening ∧
    pending.startup.life = .joinPending ∧ pending.pos.state = .listening ∧ pending.startup.config = some record ∧
    held.pos.state = .busHold ∧ held.pos.hold ≠ none ∧ asking.pal.wait ≠ none ∧ (installing 1 0 0).pal.state = .receiving ∧
    (installing 1 0 0).pal.wait ≠ none ∧ member.pal.wait = none ∧ member.pos.hold = none ∧ standby.inView = false := by decide +kernel
theorem test_witness_Qualifier : member.inReset = false ∧ member.frame.phase = .waitLow ∧
    { member with frame := ⟨.confirming, true, 0, none⟩ }.frame.phase = .confirming := by decide +kernel

/-- A member at the end of a confirmation. -/
def pulsed (s : State) (spacing : Timer) : State := { s with frame := ⟨.confirming, true, 100, spacing⟩ }

theorem test_witness_FramePulse : let late := pulsed (wall 0 3 9) none
    let due := pulsed ({ sequences 3 4 4 with pal := { member.pal with store := [{ update 0 with effective := 4 }] } }) none
    late.inReset = false ∧ late.frame.phase = .confirming ∧ late.startup.config = some record ∧ late.frame.spacing = none ∧
    late.inView = true ∧ late.agr.known = true ∧ inSet 2 late.agr.inStep = true ∧ late.agr.entry 2 = some (heard 3) ∧
    late.agr.entry 1 = some (heard 0) ∧ late.agr.c < (3 : Seq) ∧ due.agr.l < due.agr.r ∧ due.agr.r ≤ due.agr.c ∧
    due.pal.state = .normal ∧ due.pal.deferral = false ∧ (pulsed member (some 0)).frame.spacing ≠ none ∧
    (pulsed pending none).inView = false ∧ (pulsed pending none).startup.config = some record := by decide +kernel
theorem test_witness_Application : let s := member.onPal (fun p => { p with applications := [⟨[(511, 5)], true⟩] })
    s.inReset = false ∧ s.pal.applications = ⟨[(511, 5)], true⟩ :: [] ∧ member.pal.applications = [] ∧
    (511#9).toNat = 511 ∧ member.outputs.lookups = [] := by decide +kernel
theorem test_lookup_pipeline : ([7, 8, 9] : List Color).foldl Outputs.sample { present := none, ld := 0, lookups := [] } =
    { present := none, ld := 7, lookups := [8, 9] } := by decide +kernel
theorem test_witness_Frames : (Instr.submitPalette 0 0 (List.replicate 255 0)).wellFormed = true ∧
    (encodeFrame (.submitPalette 0 0 [1])).isSome = true ∧ decodeFrame [0x14, 255] = some (.takeResult 255) := by decide +kernel
theorem test_witness_Packets : (Packet.snapshot (from' 3 (.station 31) 255) 7 (.good ⟨none, List.replicate 64 0⟩)).sendable = true ∧
    (Packet.snapshot (from' 3 (.station 31) 255) 0 (.good ⟨some ⟨1, 2, 16⟩, List.replicate 64 0x3FFFFFFF⟩)).sendable = true ∧
    (Packet.message (from' 31 .all 0) false 3 (.good (List.replicate 128 255))).sendable = true ∧
    (Packet.readReturn (from' 0 (.station 0) 0) 48 16 (.good (List.replicate 16 0))).sendable = true ∧
    (Packet.ack (from' 0 (.station 0) 0) .payloadFailed true none).sendable = true := by decide +kernel
theorem test_witness_Header : (List.replicate 96 true).length = 96 := by decide +kernel
theorem test_witness_Invariants : stationInvariant member = true ∧ step member = .next (tick member) :=
  ⟨by decide +kernel, rfl⟩

end Sys2Proof.Tests

end
end

section
/-! PROOF. The ends of a membership, and its beginning, each as one state (R8 to R10, R56, R68, R69, R73). -/

namespace Sys2Proof.Machine

/-! ### The ends of a membership, as one state each (R8 to R10, R56, R73) -/

/-- R8: a membership ended: LEFT before the events of the units, STANDBY and QUIET, the receiver off. -/
theorem leftWall_eq (s : State) : leftWall s = { s with
    startup := { s.startup with life := .standby }
    lif := s.lif.switchOff, pos := s.pos.quiet, mem := { s.mem with view := 0, joinPending := false }
    agr := (unitsLeft s).1, pal := (unitsLeft s).2.1, att := (unitsLeft s).2.2.1, msg := (unitsLeft s).2.2.2
    cpe := { s.cpe with events := (({ kind := .left } : EventRecord) :: leaveEvents s).foldl pushEvent s.cpe.events } } := by
  rw [leftWall, leaveUnits_eq]; rfl

/-- R9: a MEMBER dropped: DROPPED before the events of the units, JOIN PENDING, and no possession (log 19). -/
theorem dropped_eq (source : Station) (s : State) : dropped source s = { s with
    startup := { s.startup with life := .joinPending }
    lif := s.lif.withdraw, mem := { s.mem with view := 0, joinPending := true }
    pos := { s.pos.discard with silence := 0, state := if s.pos.state = .busHold then .busHold else .listening }
    agr := (unitsLeft s).1, pal := (unitsLeft s).2.1, att := (unitsLeft s).2.2.1, msg := (unitsLeft s).2.2.2
    cpe := { s.cpe with events :=
      (({ kind := .dropped, station := some source } : EventRecord) :: leaveEvents s).foldl pushEvent s.cpe.events } } := by
  rw [dropped, leaveUnits_eq]; rfl

/-- R10, R56: a station halted: HALTED before the events of the units, which leave the view if the station was in it. -/
theorem halt_eq (s : State) : halt s = { s with
    startup := { s.startup with life := .halted }
    lif := s.lif.withdraw, pos := s.pos.quiet
    mem := { s.mem with view := if s.inView = true then 0 else s.mem.view, joinPending := false }
    agr := if s.inView = true then (unitsLeft s).1 else s.agr
    pal := if s.inView = true then (unitsLeft s).2.1 else s.pal
    att := if s.inView = true then (unitsLeft s).2.2.1 else s.att
    msg := if s.inView = true then (unitsLeft s).2.2.2 else s.msg
    cpe := { s.cpe with events := (({ kind := .halted, reason := some .duplicateNumber } : EventRecord) ::
      (if s.inView = true then leaveEvents s else [])).foldl pushEvent s.cpe.events } } := by
  by_cases hv : s.inView = true
  · simp only [halt, hv, if_true, leaveUnits_eq]; rfl
  · simp only [halt, hv]; rfl

/-- A driver that does not drive holds no packet once one handed over is withdrawn. -/
theorem Lif.withdraw_idle (l : Lif) (h : l.driver.isDriving = false) : l.withdraw = { l with driver := .released } := by
  rcases l with ⟨_, _, _, d, _⟩
  cases d with
  | released => rfl
  | waiting tx => rfl
  | driving tx => cases h

/-- R68, R69: a station in the view: what each unit holds. -/
theorem enterView_eq (founding : Bool) (v : StationSet) (joined : EventRecord) (s : State) :
    enterView founding v joined s = { s with
      startup := { s.startup with life := .member }
      mem := { view := v, cursor := s.number, joinPending := false }
      agr := Agr.enter s.cfg.participant founding v, pal := s.pal.enter founding v, att := s.att.enter, msg := s.msg.enter v
      cpe := { s.cpe with events := pushEvent s.cpe.events joined } } := rfl

end Sys2Proof.Machine
end

section
/-! PROOF. The core of the station, the start-up logic, the LIF, the MEM and the POS, and what the other units' effects leave of it. -/

namespace Sys2Proof.Machine

/-- Two states with the same start-up logic, LIF, MEM and POS: the units whose agreement with each other R3, R4, R16, R32, R33, R42,
R45 and R57 to R59 state. -/
structure SameCore (s t : State) : Prop where
  startup : t.startup = s.startup
  lif : t.lif = s.lif
  mem : t.mem = s.mem
  pos : t.pos = s.pos

namespace SameCore

variable {s t u : State}

theorem refl (s : State) : SameCore s s := ⟨rfl, rfl, rfl, rfl⟩

theorem trans (h : SameCore s t) (k : SameCore t u) : SameCore s u :=
  ⟨k.startup.trans h.startup, k.lif.trans h.lif, k.mem.trans h.mem, k.pos.trans h.pos⟩

theorem onAgr (h : SameCore s t) (f : Agr → Agr) : SameCore s (t.onAgr f) := ⟨h.startup, h.lif, h.mem, h.pos⟩
theorem onPal (h : SameCore s t) (f : Pal → Pal) : SameCore s (t.onPal f) := ⟨h.startup, h.lif, h.mem, h.pos⟩
theorem onAtt (h : SameCore s t) (f : Att → Att) : SameCore s (t.onAtt f) := ⟨h.startup, h.lif, h.mem, h.pos⟩
theorem onMsg (h : SameCore s t) (f : Msg → Msg) : SameCore s (t.onMsg f) := ⟨h.startup, h.lif, h.mem, h.pos⟩
theorem onCpe (h : SameCore s t) (f : Cpe → Cpe) : SameCore s (t.onCpe f) := ⟨h.startup, h.lif, h.mem, h.pos⟩
theorem onFrame (h : SameCore s t) (f : Qualifier → Qualifier) : SameCore s (t.onFrame f) :=
  ⟨h.startup, h.lif, h.mem, h.pos⟩
theorem onOutputs (h : SameCore s t) (f : Outputs → Outputs) : SameCore s (t.onOutputs f) :=
  ⟨h.startup, h.lif, h.mem, h.pos⟩
theorem useFree (h : SameCore s t) (n : Nat) : SameCore s (t.useFree n) := ⟨h.startup, h.lif, h.mem, h.pos⟩
theorem raise (h : SameCore s t) (e : EventRecord) : SameCore s (t.raise e) := ⟨h.startup, h.lif, h.mem, h.pos⟩

theorem raiseAll (h : SameCore s t) (es : List EventRecord) : SameCore s (t.raiseAll es) := by
  rw [State.raiseAll_eq]; exact ⟨h.startup, h.lif, h.mem, h.pos⟩

theorem raiseBoth (h : SameCore s t) (xs ys : List EventRecord) : SameCore s (t.raiseBoth xs ys) := by
  obtain ⟨es, n, he⟩ := State.raiseBoth_eq t xs ys
  rw [he]; exact ⟨h.startup, h.lif, h.mem, h.pos⟩

theorem inReset (h : SameCore s t) : t.inReset = s.inReset := by simp only [State.inReset, h.startup]
theorem inView (h : SameCore s t) : t.inView = s.inView := by simp only [State.inView, h.startup]
theorem number (h : SameCore s t) : t.number = s.number := by simp only [State.number, h.startup]

end SameCore

/-! ### What the units' own effects leave of the core -/

theorem membersGone_core (gone : StationSet) (s : State) : SameCore s (membersGone gone s) :=
  (((((SameCore.refl s).onAgr _).onPal _).onAtt _).onMsg _).raiseBoth _ _

theorem memberCame_foldl_core (p : Option Bool) (ns : List Station) (s : State) :
    SameCore s (ns.foldl (memberCame p) s) := by
  induction ns generalizing s with
  | nil => exact .refl s
  | cons n ns ih => exact ((((SameCore.refl s).onAgr _).onPal _).onMsg _).trans (ih _)

theorem adopt_core (v : StationSet) (s : State) : SameCore (s.setView v) (adopt v s) :=
  (((SameCore.refl _).raiseAll _).trans (membersGone_core _ _)).trans (memberCame_foldl_core none _ _)

theorem removeSilent_core (n : Station) (s : State) :
    SameCore (s.setView (removeFrom n s.mem.view)) (removeSilent n s) :=
  ((SameCore.refl _).raise _).trans (membersGone_core _ _)

theorem onStatus_core (h : Head) (p : Payload StatusBody) (s : State) : SameCore s (onStatus h p s) := by
  unfold onStatus
  split
  · split
    · exact ((((SameCore.refl s).onAgr _).onPal _).onMsg _).raiseBoth _ _
    · exact ((SameCore.refl s).onPal _).onMsg _
  · exact .refl s

theorem onCommit_core (h : Head) (p : Payload CommitBody) (s : State) : SameCore s (onCommit h p s) := by
  unfold onCommit
  split
  · split
    · exact ((SameCore.refl s).onAgr _).raiseAll _
    · exact .refl s
  · exact .refl s

theorem onPalette_core (h : Head) (p : Payload UpdateRecord) (s : State) : SameCore s (onPalette h p s) := by
  unfold onPalette
  split
  · exact ((SameCore.refl s).onPal _).raiseAll _
  · exact .refl s

theorem onSnapshot_core (h : Head) (part : Byte) (p : Payload SnapshotBody) (s : State) :
    SameCore s (onSnapshot h part p s) := by
  unfold onSnapshot
  split
  · exact ((SameCore.refl s).onPal _).raiseAll _
  · exact .refl s

theorem onReplay_core (h : Head) (p : Payload UpdateRecord) (s : State) : SameCore s (onReplay h p s) := by
  unfold onReplay
  split
  · exact ((SameCore.refl s).onPal _).raiseAll _
  · exact .refl s

theorem onReadReturn_core (h : Head) (start count : Byte) (p : Payload (List Value)) (s : State) :
    SameCore s (onReadReturn h start count p s) := by
  unfold onReadReturn
  split
  · exact ((SameCore.refl s).onAtt _).raiseAll _
  · exact .refl s

theorem deliverMessage_core (h : Head) (stream : BitVec 2) (p : Payload (List Byte)) (s : State) :
    SameCore s (deliverMessage h stream p s) := by
  unfold deliverMessage
  split
  · exact ((SameCore.refl s).onMsg _).raiseAll _
  · exact .refl s

/-- The outcome of a reply slot ends the slot; in the core nothing else changes but the view, which an accepted joiner enters. -/
theorem slotOutcome_core (sl : Slot) (r : SlotResult) (s : State) : ∃ v : StationSet,
    (∀ n, inSet n s.mem.view = true → inSet n v = true) ∧
    SameCore ((s.setView v).onPos (fun p => { p with slot := none })) (slotOutcome sl r s) := by
  have full : SameCore (s.onPos (fun p => { p with slot := none }))
      (if r.result = some .queueFull then
        (s.onPos (fun p => { p with slot := none })).onMsg (fun g => { g with credits := setCredit g.credits sl.target 0 })
      else s.onPos (fun p => { p with slot := none })) := by
    split <;> exact ⟨rfl, rfl, rfl, rfl⟩
  have same : SameCore ((s.setView s.mem.view).onPos (fun p => { p with slot := none }))
      (s.onPos (fun p => { p with slot := none })) := ⟨rfl, rfl, rfl, rfl⟩
  have keep := same.trans full
  cases ho : sl.owner with
  | invite =>
    cases r with
    | joined participant =>
      refine ⟨addTo sl.target s.mem.view, fun n hn => by simp [inSet_addTo, hn], ?_⟩
      simp only [slotOutcome, ho]
      exact ⟨rfl, rfl, rfl, rfl⟩
    | noReply => exact ⟨_, fun _ h => h, by simpa only [slotOutcome, ho] using keep⟩
    | ack a c => exact ⟨_, fun _ h => h, by simpa only [slotOutcome, ho] using keep⟩
  | snapshotRequest =>
    refine ⟨_, fun _ h => h, ?_⟩
    simp only [slotOutcome, ho]
    exact keep.onPal _
  | request tag =>
    refine ⟨_, fun _ h => h, ?_⟩
    simp only [slotOutcome, ho]
    exact (keep.onAtt _).raiseAll _
  | message =>
    refine ⟨_, fun _ h => h, ?_⟩
    simp only [slotOutcome, ho]
    exact (keep.onMsg _).raiseAll _

end Sys2Proof.Machine
end

section
/-! PROOF. The agreement of the core (O60) in the form in which the steps keep it, what it says of the invariants of Safety.lean, and the
changes of each unit that keep it. -/

namespace Sys2Proof.Machine

/-! ### The agreement of the start-up logic, the LIF, the MEM and the POS -/

/-- The life-cycle states of a station in the view (R58). -/
def Life.inView : Life → Bool
  | .unconfigured => false
  | .standby => false
  | .joinPending => false
  | .member => true
  | .leaving => true
  | .halted => false

/-- The life-cycle states in which the station takes part in the bus: the POS is not QUIET (R57). -/
def Life.onBus : Life → Bool
  | .unconfigured => false
  | .standby => false
  | .joinPending => true
  | .member => true
  | .leaving => true
  | .halted => false

theorem State.inView_eq (s : State) : s.inView = s.startup.life.inView := by
  unfold State.inView; cases s.startup.life <;> rfl

theorem Life.onBus_of_inView {l : Life} (h : l.inView = true) : l.onBus = true := by cases l <;> trivial

/-- A reset is in force (R1). -/
def Startup.inReset (u : Startup) : Bool := u.powerReset || u.pinReset

theorem State.inReset_eq (s : State) : s.inReset = s.startup.inReset := rfl

/-- The seven statements of O60 about the four units they read, in the form in which the steps keep them. -/
structure Agree (u : Startup) (l : Lif) (m : Mem) (p : Pos) : Prop where
  member : u.life.inView = true → inSet u.number m.view = true
  outside : u.life.inView = false →
    m.view = 0 ∧ p.slot = none ∧ p.handover = none ∧ ∀ tx, l.driver.tx = some tx → tx.cls = .reply
  joining : m.joinPending = true ↔ u.life = .joinPending
  config : u.config = none ↔ u.life = .unconfigured
  receiver : l.receiver ≠ .off ↔ u.inReset = false ∧ u.life.receiverOn = true
  quiet : p.state = .quiet ↔ u.life.onBus = false
  driver : l.driver.tx ≠ none → u.inReset = false ∧ p.state.mayDrive = true ∧ p.turnaround = none
  window : p.turnaround ≠ none → p.state = .handingOver
  slot : p.slot ≠ none → p.state = .awaitingReply

/-- The station's units agree. -/
def State.Agrees (s : State) : Prop := Agree s.startup s.lif s.mem s.pos

/-! #### The invariants of Safety.lean, in these terms -/

theorem viewAgrees_iff (s : State) : viewAgrees s = true ↔
    (s.startup.life.inView = true → inSet s.startup.number s.mem.view = true) ∧
      (s.startup.life.inView = false → s.mem.view = 0) := by
  rw [viewAgrees, State.inView_eq, State.number]
  cases s.startup.life.inView <;> simp

theorem possessionInView_iff (s : State) : possessionInView s = true ↔ (s.startup.life.inView = false →
    s.pos.slot = none ∧ s.pos.handover = none ∧ ∀ tx, s.lif.driver.tx = some tx → tx.cls = .reply) := by
  rw [possessionInView, State.inView_eq]
  cases s.startup.life.inView <;> cases s.lif.driver.tx <;> simp [and_assoc]

theorem joinPendingAgrees_iff (s : State) :
    joinPendingAgrees s = true ↔ (s.mem.joinPending = true ↔ s.startup.life = .joinPending) := by
  rw [joinPendingAgrees, beq_iff_eq, Bool.eq_iff_iff, beq_iff_eq]

theorem configAgrees_iff (s : State) :
    configAgrees s = true ↔ (s.startup.config = none ↔ s.startup.life = .unconfigured) := by
  rw [configAgrees, beq_iff_eq, Bool.eq_iff_iff, Option.isNone_iff_eq_none, beq_iff_eq]

theorem receiverAgrees_iff (s : State) : receiverAgrees s = true ↔
    (s.lif.receiver ≠ .off ↔ s.startup.inReset = false ∧ s.startup.life.receiverOn = true) := by
  rw [receiverAgrees, beq_iff_eq, Bool.eq_iff_iff, bne_iff_ne, State.inReset_eq, Bool.and_eq_true, Bool.not_eq_true']

theorem quietAgrees_iff (s : State) : quietAgrees s = true ↔ (s.pos.state = .quiet ↔ s.startup.life.onBus = false) := by
  rw [quietAgrees, beq_iff_eq, Bool.eq_iff_iff, beq_iff_eq]
  cases s.startup.life <;> simp [Life.onBus]

theorem driverAgrees_iff (s : State) : driverAgrees s = true ↔
    (s.lif.driver.tx ≠ none → s.startup.inReset = false ∧ s.startup.life.onBus = true ∧ s.pos.state.mayDrive = true ∧
      s.pos.turnaround = none) ∧
    (s.pos.turnaround ≠ none → s.pos.state = .handingOver) ∧ (s.pos.slot ≠ none → s.pos.state = .awaitingReply) := by
  have hb : (s.inView || s.startup.life == .joinPending) = s.startup.life.onBus := by
    rw [State.inView_eq]; cases s.startup.life <;> rfl
  rw [driverAgrees, hb, State.inReset_eq]
  simp only [Bool.and_eq_true, Bool.or_eq_true, Option.isNone_iff_eq_none, beq_iff_eq, Bool.not_eq_true', and_assoc,
    ← or_iff_not_imp_left, ne_eq]

/-- A POS that is not QUIET belongs to a station on the bus (R57). -/
theorem Agree.onBus {u : Startup} {l : Lif} {m : Mem} {p : Pos} (h : Agree u l m p) (hp : p.state ≠ .quiet) :
    u.life.onBus = true := by
  by_contra hb; exact hp (h.quiet.2 (by simpa using hb))

theorem mayDrive_not_quiet {p : Possession} (h : p.mayDrive = true) : p ≠ .quiet := by rintro rfl; cases h

/-- The agreement is what the seven invariants say together. -/
theorem agrees_iff (s : State) : s.Agrees ↔ (viewAgrees s = true ∧ possessionInView s = true ∧ joinPendingAgrees s = true ∧
    configAgrees s = true ∧ receiverAgrees s = true ∧ quietAgrees s = true ∧ driverAgrees s = true) := by
  rw [viewAgrees_iff, possessionInView_iff, joinPendingAgrees_iff, configAgrees_iff, receiverAgrees_iff, quietAgrees_iff,
    driverAgrees_iff]
  constructor
  · intro h
    refine ⟨⟨h.member, fun hv => (h.outside hv).1⟩, fun hv => (h.outside hv).2, h.joining, h.config, h.receiver, h.quiet,
      fun hd => ?_, h.window, h.slot⟩
    obtain ⟨hr, hm, ht⟩ := h.driver hd
    exact ⟨hr, h.onBus (mayDrive_not_quiet hm), hm, ht⟩
  · rintro ⟨⟨hv, ho⟩, hp, hj, hc, hr, hq, hd, hw, hs⟩
    exact ⟨hv, fun h => ⟨ho h, hp h⟩, hj, hc, hr, hq, fun h => ⟨(hd h).1, (hd h).2.2⟩, hw, hs⟩

/-! #### What keeps the agreement -/

section
variable {u : Startup} {l : Lif} {m : Mem} {p : Pos}

/-- In a possession state in which no packet stands with the LIF, none does. -/
theorem Agree.no_tx (h : Agree u l m p) (hp : p.state.mayDrive = false) : l.driver.tx = none := by
  by_contra hd
  rw [(h.driver hd).2.1] at hp; cases hp

/-- A slot that is open makes the station one of the view. -/
theorem Agree.inView_of_slot (h : Agree u l m p) (hs : p.slot ≠ none) : u.life.inView = true := by
  by_contra hv; exact hs (h.outside (by simpa using hv)).2.1

/-- A packet other than a reply makes the station one of the view (R33). -/
theorem Agree.inView_of_tx (h : Agree u l m p) {tx : Tx} (ht : l.driver.tx = some tx) (hc : tx.cls ≠ .reply) :
    u.life.inView = true := by
  by_contra hv; exact hc ((h.outside (by simpa using hv)).2.2.2 tx ht)

/-- No window runs outside HANDING OVER. -/
theorem Agree.no_window (h : Agree u l m p) (hp : p.state ≠ .handingOver) : p.turnaround = none := by
  by_contra ht; exact hp (h.window ht)

/-- No slot is open outside AWAITING REPLY. -/
theorem Agree.no_slot (h : Agree u l m p) (hp : p.state ≠ .awaitingReply) : p.slot = none := by
  by_contra ht; exact hp (h.slot ht)

/-- Timers, counts and notes of the POS may change. -/
theorem Agree.samePossession (h : Agree u l m p) {p' : Pos} (hst : p'.state = p.state) (hsl : p'.slot = none ↔ p.slot = none)
    (hh : p'.handover = p.handover) (ht : p'.turnaround = none ↔ p.turnaround = none) : Agree u l m p' where
  member := h.member
  outside hv := by
    obtain ⟨h1, h2, h3, h4⟩ := h.outside hv
    exact ⟨h1, hsl.2 h2, hh.trans h3, h4⟩
  joining := h.joining
  config := h.config
  receiver := h.receiver
  quiet := by rw [hst]; exact h.quiet
  driver hd := by
    obtain ⟨h1, h2, h3⟩ := h.driver hd
    exact ⟨h1, hst ▸ h2, ht.2 h3⟩
  window hw := by rw [hst]; exact h.window (fun e => hw (ht.2 e))
  slot hs := by rw [hst]; exact h.slot (fun e => hs (hsl.2 e))

/-- The receiver moves among its states that are on, and the driver keeps its packet or is released. -/
theorem Agree.sameReceiver (h : Agree u l m p) {l' : Lif} (hr : l'.receiver = .off ↔ l.receiver = .off)
    (hd : l'.driver.tx = l.driver.tx ∨ l'.driver.tx = none) : Agree u l' m p where
  member := h.member
  outside hv := by
    obtain ⟨h1, h2, h3, h4⟩ := h.outside hv
    refine ⟨h1, h2, h3, fun tx ht => ?_⟩
    rcases hd with hd | hd
    · exact h4 tx (hd ▸ ht)
    · rw [hd] at ht; cases ht
  joining := h.joining
  config := h.config
  receiver := (not_congr hr).trans h.receiver
  quiet := h.quiet
  driver ht := by
    rcases hd with hd | hd
    · exact h.driver (hd ▸ ht)
    · exact absurd hd ht
  window := h.window
  slot := h.slot

/-- A station on the bus with nothing for the LIF may wait in LISTENING or BUS HOLD. -/
theorem Agree.waits (h : Agree u l m p) (hb : u.life.onBus = true) (hd : l.driver.tx = none) {p' : Pos}
    (hst : p'.state = .listening ∨ p'.state = .busHold) (hsl : p'.slot = none) (hh : p'.handover = none ∨ p'.handover = p.handover)
    (ht : p'.turnaround = none) : Agree u l m p' where
  member := h.member
  outside hv := by
    obtain ⟨h1, _, h3, h4⟩ := h.outside hv
    exact ⟨h1, hsl, hh.elim id (·.trans h3), h4⟩
  joining := h.joining
  config := h.config
  receiver := h.receiver
  quiet := by rcases hst with e | e <;> simp [e, hb]
  driver := fun e => absurd hd e
  window := fun e => absurd ht e
  slot := fun e => absurd hsl e

/-- A station in the view may change its view and its cursor as long as the view contains it. -/
theorem Agree.newView (h : Agree u l m p) (hv : u.life.inView = true) {m' : Mem} (hm : inSet u.number m'.view = true)
    (hj : m'.joinPending = m.joinPending) : Agree u l m' p where
  member := fun _ => hm
  outside := fun e => by rw [hv] at e; cases e
  joining := by rw [hj]; exact h.joining
  config := h.config
  receiver := h.receiver
  quiet := h.quiet
  driver := h.driver
  window := h.window
  slot := h.slot

/-- A station in the view that is in possession, with or without a packet for the LIF. -/
theorem Agree.possesses (h : Agree u l m p) (hv : u.life.inView = true) (hr : u.inReset = false) {l' : Lif} {p' : Pos}
    (hl : l'.receiver = .off ↔ l.receiver = .off) (hst : p'.state.mayDrive = true) (hsl : p'.slot = none)
    (ht : p'.turnaround = none) : Agree u l' m p' where
  member := h.member
  outside := fun e => by rw [hv] at e; cases e
  joining := h.joining
  config := h.config
  receiver := (not_congr hl).trans h.receiver
  quiet := by simp [Life.onBus_of_inView hv, mayDrive_not_quiet hst]
  driver := fun _ => ⟨hr, hst, ht⟩
  window := fun e => absurd ht e
  slot := fun e => absurd hsl e

/-- A station in the view with nothing for the LIF that awaits a reply, or whose turnaround window runs. -/
theorem Agree.awaits (h : Agree u l m p) (hv : u.life.inView = true) (hd : l.driver.tx = none) {p' : Pos}
    (hst : p'.state = .awaitingReply ∧ p'.turnaround = none ∨ p'.state = .handingOver ∧ p'.slot = none) : Agree u l m p' where
  member := h.member
  outside := fun e => by rw [hv] at e; cases e
  joining := h.joining
  config := h.config
  receiver := h.receiver
  quiet := by rcases hst with ⟨e, _⟩ | ⟨e, _⟩ <;> simp [e, Life.onBus_of_inView hv]
  driver := fun e => absurd hd e
  window e := by
    rcases hst with ⟨_, ht⟩ | ⟨hp, _⟩
    · exact absurd ht e
    · exact hp
  slot e := by
    rcases hst with ⟨hp, _⟩ | ⟨_, hs⟩
    · exact hp
    · exact absurd hs e

/-- A station off the bus: outside the view, QUIET, and nothing for the LIF. -/
theorem Agree.offBus {u' : Startup} {l' : Lif} {m' : Mem} {p' : Pos} (hb : u'.life.onBus = false) (hm : m'.view = 0 ∧ m'.joinPending = false)
    (hc : u'.config = none ↔ u'.life = .unconfigured) (hr : l'.receiver ≠ .off ↔ u'.inReset = false ∧ u'.life.receiverOn = true)
    (hd : l'.driver.tx = none) (hst : p'.state = .quiet ∧ p'.slot = none ∧ p'.handover = none ∧ p'.turnaround = none) :
    Agree u' l' m' p' := by
  obtain ⟨hv, hj⟩ := hm
  obtain ⟨hp, hs, hh, ht⟩ := hst
  exact {
    member := fun e => by rw [Life.onBus_of_inView e] at hb; cases hb
    outside := fun _ => ⟨hv, hs, hh, fun tx e => by rw [hd] at e; cases e⟩
    joining := ⟨fun e => (by rw [hj] at e; cases e), fun e => by rw [e] at hb; cases hb⟩
    config := hc
    receiver := hr
    quiet := ⟨fun _ => hb, fun _ => hp⟩
    driver := fun e => absurd hd e
    window := fun e => absurd ht e
    slot := fun e => absurd hs e }

end

theorem SameCore.agrees {s t : State} (h : SameCore s t) (hs : s.Agrees) : t.Agrees := by
  rw [State.Agrees, h.startup, h.lif, h.mem, h.pos]; exact hs

end Sys2Proof.Machine
end

section
/-! PROOF. The scheduler, the reply slot and the hearing of packets keep the agreement of the core. -/

namespace Sys2Proof.Machine

/-! ### The scheduler and the reply slot keep the agreement -/

/-- A choice of the scheduler, made by a station of the view that is in possession, keeps the agreement. -/
theorem choose_agrees {s : State} (h : s.Agrees) (hv : s.inView = true) (hr : s.inReset = false)
    (hst : s.pos.state.mayDrive = true) (ht : s.pos.turnaround = none) : (choose s).Agrees := by
  have c := choose_chosen s
  obtain ⟨tx, hl⟩ := c.lif
  have hsl : s.pos.slot = none := Agree.no_slot h (fun e => by rw [e] at hst; cases hst)
  rw [State.Agrees, c.startup, c.mem, hl, c.pos]
  exact Agree.possesses h (by rw [← State.inView_eq]; exact hv) hr Iff.rfl hst hsl ht

/-- R37, R48: a possession that begins with its first packet. -/
theorem beginPossession_agrees {s : State} (h : s.Agrees) (hv : s.inView = true) (hr : s.inReset = false) :
    (beginPossession s).Agrees :=
  choose_agrees (Agree.possesses h (by rw [← State.inView_eq]; exact hv) hr Iff.rfl rfl rfl rfl) hv hr rfl rfl

/-- R35, R36: a possession opened by a CLAIM packet. -/
theorem claimPossession_agrees {s : State} (h : s.Agrees) (hv : s.inView = true) (hr : s.inReset = false) :
    (claimPossession s).Agrees :=
  Agree.possesses h (by rw [← State.inView_eq]; exact hv) hr Iff.rfl rfl rfl rfl

/-- The outcome of an open slot keeps the agreement but for the possession state, which the possessor leaves: with any POS that is in
possession or waits, the station agrees. -/
theorem slotOutcome_core_agree {s : State} (sl : Slot) (r : SlotResult) (h : s.Agrees) (hsl : s.pos.slot ≠ none) :
    Agree (slotOutcome sl r s).startup (slotOutcome sl r s).lif (slotOutcome sl r s).mem s.pos := by
  obtain ⟨v, hv, c⟩ := slotOutcome_core sl r s
  have hi := Agree.inView_of_slot h hsl
  rw [c.startup, c.lif, c.mem]
  exact Agree.newView h hi (hv _ (Agree.member h hi)) rfl

/-- R42: the slot ends and the scheduler chooses again. -/
theorem resume_slotOutcome_agrees {s : State} (sl : Slot) (r : SlotResult) (h : s.Agrees) (hr : s.inReset = false)
    (hsl : s.pos.slot ≠ none) : (resumePossession (slotOutcome sl r s)).Agrees := by
  obtain ⟨v, hv, c⟩ := slotOutcome_core sl r s
  have hi : s.inView = true := by rw [State.inView_eq]; exact Agree.inView_of_slot h hsl
  have ht : s.pos.turnaround = none := Agree.no_window h (by rw [Agree.slot h hsl]; decide)
  have hw : (slotOutcome sl r s).inView = true := c.inView.trans hi
  refine choose_agrees (s := (slotOutcome sl r s).setPossession .possessing) ?_ hw (c.inReset.trans hr) rfl (by
    rw [State.pos_setPossession, c.pos]; exact ht)
  exact Agree.possesses (slotOutcome_core_agree sl r h hsl) (by rw [← State.inView_eq]; exact hw) (c.inReset.trans hr) Iff.rfl rfl
    (by rw [State.pos_setPossession, c.pos]; rfl) (by rw [State.pos_setPossession, c.pos]; exact ht)

/-! ### Hearing keeps the agreement -/

/-- A station whose units agree and that can hear: no reset is in force and it does not drive. -/
structure Hears (s : State) : Prop where
  agrees : s.Agrees
  awake : s.inReset = false
  idle : s.lif.driver.isDriving = false

theorem SameCore.hears {s t : State} (c : SameCore s t) (h : Hears s) : Hears t :=
  ⟨c.agrees h.agrees, c.inReset.trans h.awake, by rw [c.lif]; exact h.idle⟩

/-- R43: a possession conflict. -/
theorem conflict_hears {s : State} (sl : Slot) (h : Hears s) (hsl : s.pos.slot ≠ none) : Hears (conflict sl s) := by
  obtain ⟨v, hv, c⟩ := slotOutcome_core sl .noReply s
  have hp : s.pos.state = .awaitingReply := Agree.slot h.agrees hsl
  have hl : (slotOutcome sl .noReply s).lif = s.lif := c.lif
  refine ⟨?_, c.inReset.trans h.awake, by simp only [conflict, State.lif_onPos, hl]; exact h.idle⟩
  refine Agree.waits (slotOutcome_core_agree sl .noReply h.agrees hsl) ?_ ?_ (.inl rfl) rfl (.inl rfl) rfl
  · rw [c.startup]; exact Agree.onBus h.agrees (by rw [hp]; decide)
  · rw [hl]; exact Agree.no_tx h.agrees (by rw [hp]; rfl)

/-- R68, R69: a pending station enters a view that contains it. -/
theorem enterView_agrees {s : State} (founding : Bool) (v : StationSet) (joined : EventRecord) (h : s.Agrees)
    (hl : s.startup.life = .joinPending) (hv : inSet s.number v = true) : (enterView founding v joined s).Agrees where
  member := fun _ => hv
  outside := fun e => by cases e
  joining := by simp [enterView_eq]
  config := by
    have hc := h.config
    rw [hl] at hc
    exact ⟨fun e => (by cases hc.1 e), fun e => by cases e⟩
  receiver := by
    have hc := h.receiver
    rw [hl] at hc
    exact hc
  quiet := by
    have hc := h.quiet
    rw [hl] at hc
    exact hc
  driver := h.driver
  window := h.window
  slot := h.slot

/-- R8: a LEAVING station's membership ends. -/
theorem leftWall_agrees {s : State} (h : s.Agrees) (hl : s.startup.life ≠ .unconfigured) : (leftWall s).Agrees := by
  rw [leftWall_eq]
  refine Agree.offBus rfl ⟨rfl, rfl⟩ ⟨fun e => absurd (h.config.1 e) hl, fun e => by cases e⟩ ?_ rfl ⟨rfl, rfl, rfl, rfl⟩
  exact ⟨fun e => absurd rfl e, fun e => by cases e.2⟩

/-- R9: a MEMBER is dropped. -/
theorem dropped_hears {s : State} (src : Station) (h : Hears s) (hl : s.startup.life = .member) : Hears (dropped src s) := by
  rw [dropped_eq, Lif.withdraw_idle _ h.idle]
  refine ⟨?_, h.awake, rfl⟩
  exact {
    member := fun e => by cases e
    outside := fun _ => ⟨rfl, rfl, rfl, fun tx e => by cases e⟩
    joining := by simp
    config := ⟨fun e => (by rw [h.agrees.config.1 e] at hl; cases hl), fun e => by cases e⟩
    receiver := by
      have hc := h.agrees.receiver
      rw [hl] at hc
      exact hc
    quiet := by
      show (if s.pos.state = .busHold then Possession.busHold else .listening) = .quiet ↔ _
      split <;> simp [Life.onBus]
    driver := fun e => absurd rfl e
    window := fun e => absurd rfl e
    slot := fun e => absurd rfl e }

/-- R10, R56: the station halts. -/
theorem halt_agrees {s : State} (h : Hears s) (hr : s.lif.receiver ≠ .off) : (halt s).Agrees := by
  obtain ⟨hu, hon⟩ := h.agrees.receiver.1 hr
  rw [halt_eq, Lif.withdraw_idle _ h.idle]
  refine Agree.offBus rfl ⟨?_, rfl⟩ ⟨fun e => ?_, fun e => by cases e⟩ ⟨fun _ => ⟨hu, rfl⟩, fun _ => hr⟩ rfl ⟨rfl, rfl, rfl, rfl⟩
  · show (if s.inView = true then 0 else s.mem.view) = 0
    split
    · rfl
    · rename_i hv
      exact (h.agrees.outside (by rw [← State.inView_eq]; simpa using hv)).1
  · rw [h.agrees.config.1 e] at hon; cases hon

/-- R61, R63, R68: a HANDOVER packet and the membership. -/
theorem handoverMembership_hears (hd : Head) (v : StationSet) {s : State} (h : Hears s) :
    Hears (handoverMembership hd v s) := by
  have adopts : s.inView = true → inSet s.number v = true → Hears (adopt v s) := fun hi hv => (adopt_core v s).hears
    ⟨Agree.newView h.agrees (by rw [← State.inView_eq]; exact hi) hv rfl, h.awake, h.idle⟩
  have hi := State.inView_eq s
  cases hl : s.startup.life with
  | joinPending =>
    simp only [handoverMembership, hl]
    split
    · rename_i hv
      exact ⟨enterView_agrees false v _ h.agrees hl hv, h.awake, h.idle⟩
    · exact h
  | member =>
    simp only [handoverMembership, hl]
    split
    · rename_i hv
      exact adopts (by rw [hi, hl]; rfl) hv
    · exact dropped_hears hd.source h hl
  | leaving =>
    simp only [handoverMembership, hl]
    split
    · rename_i hv
      exact adopts (by rw [hi, hl]; rfl) hv
    · refine ⟨leftWall_agrees h.agrees (by simp [hl]), ?_, ?_⟩
      · rw [leftWall_eq]; exact h.awake
      · rw [leftWall_eq]; rfl
  | unconfigured => simpa only [handoverMembership, hl] using h
  | standby => simpa only [handoverMembership, hl] using h
  | halted => simpa only [handoverMembership, hl] using h

/-- R37: a possession begun over the membership change. -/
theorem onHandover_agrees (hd : Head) (v : StationSet) {s : State} (h : Hears s) : (onHandover hd v s).Agrees := by
  have hm := handoverMembership_hears hd v h
  unfold onHandover beginIfNamed
  split
  · rename_i hc
    simp only [Bool.and_eq_true] at hc
    obtain ⟨⟨⟨hv, _⟩, _⟩, _⟩ := hc
    exact beginPossession_agrees hm.agrees hv hm.awake
  · exact hm.agrees

/-- R44: a LISTENING station of the bus gives a reply. -/
theorem reply_agrees (k : Packet) {s : State} (h : s.Agrees) (hr : s.inReset = false) (hp : s.pos.state = .listening) :
    (reply k s).Agrees where
  member := h.member
  outside := fun hv => by
    obtain ⟨h1, h2, h3, _⟩ := h.outside hv
    exact ⟨h1, h2, h3, fun tx e => by cases e; rfl⟩
  joining := h.joining
  config := h.config
  receiver := h.receiver
  quiet := by
    have hq := Agree.onBus h (by rw [hp]; decide)
    exact ⟨fun e => (by cases e), fun e => by rw [show s.startup.life.onBus = false from e] at hq; cases hq⟩
  driver := fun _ => ⟨hr, rfl, (Agree.no_window h (by rw [hp]; decide) : s.pos.turnaround = none)⟩
  window := fun e => absurd (Agree.no_window h (by rw [hp]; decide) : s.pos.turnaround = none) e
  slot := fun e => absurd (Agree.no_slot h (by rw [hp]; decide) : s.pos.slot = none) e

/-- R44: an ACK given by a station that answers requests, whatever its other units have done. -/
theorem replyAck_agrees (hd : Head) (r : AckResult) {s t : State} (h : Hears s) (c : SameCore s t)
    (ha : answersRequests s = true) : (replyAck hd r t).Agrees := by
  simp only [answersRequests, Bool.and_eq_true, beq_iff_eq] at ha
  exact reply_agrees _ (c.agrees h.agrees) (c.inReset.trans h.awake) (by rw [c.pos]; exact ha.2)

/-- R24: what the units do with a readable packet. -/
theorem actOn_agrees (k : Packet) {s : State} (h : Hears s) : (actOn k s).Agrees := by
  cases k with
  | handover hd a v f => exact onHandover_agrees hd v h
  | claim hd f => exact h.agrees
  | invite hd f =>
    show (onInvite hd s).Agrees
    unfold onInvite
    split
    · rename_i hc
      simp only [Bool.and_eq_true, beq_iff_eq] at hc
      exact reply_agrees _ h.agrees h.awake hc.2
    · exact h.agrees
  | join hd p f => exact h.agrees
  | leave hd f => exact h.agrees
  | status hd p => exact (onStatus_core hd p s).agrees h.agrees
  | commit hd p => exact (onCommit_core hd p s).agrees h.agrees
  | palette hd p => exact (onPalette_core hd p s).agrees h.agrees
  | snapshotRequest hd f =>
    show (onSnapshotRequest hd s).Agrees
    unfold onSnapshotRequest
    split
    · rename_i hc
      exact replyAck_agrees hd _ h ((SameCore.refl s).onPal _) (Bool.and_eq_true_iff.1 hc).2
    · exact h.agrees
  | snapshot hd part p => exact (onSnapshot_core hd part p s).agrees h.agrees
  | replay hd p => exact (onReplay_core hd p s).agrees h.agrees
  | message hd a st p =>
    have c : SameCore s (deliverMessage hd st p (lowerMessageCredits hd s)) :=
      ((SameCore.refl s).onMsg _).trans (deliverMessage_core hd st p _)
    show (onMessage hd a st p s).Agrees
    unfold onMessage
    split
    · dsimp only
      split
      · rename_i hc
        exact replyAck_agrees hd _ h c (Bool.and_eq_true_iff.1 hc).2
      · exact c.agrees h.agrees
    · exact h.agrees
  | read hd a n f =>
    show (onRead hd a n s).Agrees
    unfold onRead
    split
    · rename_i hc
      exact replyAck_agrees hd _ h ((SameCore.refl s).onAtt _) (Bool.and_eq_true_iff.1 hc).2
    · exact h.agrees
  | write hd i v f =>
    show (onWrite hd i v s).Agrees
    unfold onWrite
    split
    · rename_i hc
      exact replyAck_agrees hd _ h (((SameCore.refl s).onAtt _).raiseAll _) (Bool.and_eq_true_iff.1 hc).2
    · exact h.agrees
  | readReturn hd a n p => exact (onReadReturn_core hd a n p s).agrees h.agrees
  | ack hd r c f => exact h.agrees

/-- A receiver that follows the line, in a station that hears. -/
theorem canHear_iff (s : State) :
    canHear s = true ↔ s.inReset = false ∧ s.lif.receiver.follows = true ∧ s.lif.driver.isDriving = false := by
  simp [canHear, and_assoc]

theorem Receiver.on_of_follows {r : Receiver} (h : r.follows = true) : r ≠ .off := by rintro rfl; cases h

@[simp] theorem Lif.receiver_noteClasses (l : Lif) (c : Classes) : (l.noteClasses c).receiver = l.receiver := by
  unfold Lif.noteClasses; split <;> rfl

@[simp] theorem Lif.driver_noteClasses (l : Lif) (c : Classes) : (l.noteClasses c).driver = l.driver := by
  unfold Lif.noteClasses; split <;> rfl

@[simp] theorem Lif.driver_frameEnds (l : Lif) (c : Classes) : (l.frameEnds c).driver = l.driver := by
  unfold Lif.frameEnds; split <;> rfl

/-- A packet heard leaves the receiver on. -/
theorem Lif.receiver_frameEnds (l : Lif) (c : Classes) : (l.frameEnds c).receiver ≠ .off := by
  unfold Lif.frameEnds
  split
  · exact Receiver.noConfusion
  · show (if l.receiver = .armed then Receiver.armed else .draining) ≠ .off
    split <;> exact Receiver.noConfusion

/-- R46: activity in the turnaround window ends the possession; elsewhere nothing happens. -/
theorem endHandover_agree {u : Startup} {l : Lif} {m : Mem} {p : Pos} (h : Agree u l m p) : Agree u l m p.endHandover := by
  unfold Pos.endHandover
  split
  · rename_i hc
    obtain ⟨hp, ht⟩ := hc
    have hw : p.turnaround ≠ none := Option.isSome_iff_ne_none.1 ht
    refine Agree.waits h (h.onBus (by rw [hp]; decide)) ?_ (.inl rfl) rfl (.inl rfl) rfl
    by_contra hd
    exact hw (h.driver hd).2.2
  · exact h

/-- R25, R26, R46: what hearing any packet does before the units. -/
theorem notePacket_hears (c : Classes) {s : State} (h : Hears s) : Hears (notePacket c s) := by
  have hl : Agree s.startup (s.lif.noteClasses c) s.mem s.pos := Agree.sameReceiver h.agrees (by simp) (.inl (by simp))
  exact ⟨Agree.samePossession (endHandover_agree hl) rfl Iff.rfl rfl Iff.rfl, h.awake, by
    simpa [notePacket] using h.idle⟩

/-- R42: in AWAITING REPLY an unreadable packet is NO REPLY. -/
theorem unreadableInSlot_agrees {s : State} (h : Hears s) : (unreadableInSlot s).Agrees := by
  unfold unreadableInSlot
  split
  · rename_i sl hs
    split
    · exact resume_slotOutcome_agrees sl .noReply h.agrees h.awake (by rw [hs]; exact Option.some_ne_none sl)
    · exact h.agrees
  · exact h.agrees

/-- R25, R42, R121: an unreadable packet. -/
theorem hearUnreadable_agrees {s : State} (h : Hears s) : (hearUnreadable s).Agrees := by
  refine unreadableInSlot_agrees (SameCore.hears ?_ h)
  split
  · exact (((SameCore.refl s).onPal _).onMsg _).onPal _
  · exact .refl s

/-- R42, R43: the reply of the slot, a possession conflict, or neither. -/
theorem throughSlot_agrees (k : Packet) {s : State} (h : Hears s) : (throughSlot k (actOn k) s).Agrees := by
  unfold throughSlot
  split
  · rename_i sl hs
    have hs' : s.pos.slot ≠ none := by rw [hs]; exact Option.some_ne_none sl
    split
    · split
      · exact resume_slotOutcome_agrees sl _ h.agrees h.awake hs'
      · exact actOn_agrees k (conflict_hears sl h hs')
    · exact actOn_agrees k h
  · exact actOn_agrees k h

/-- R10, R24, R121: a readable packet. -/
theorem hearReadable_agrees (k : Packet) {s : State} (h : Hears s) (hr : s.lif.receiver ≠ .off) :
    (hearReadable k (actOn k) s).Agrees := by
  unfold hearReadable
  split
  · exact halt_agrees h hr
  · refine throughSlot_agrees k (SameCore.hears ?_ h)
    split
    · exact (SameCore.refl s).onPal _
    · exact .refl s

/-- What the station does with a packet it hears. -/
theorem unitsHear_agrees (hd : Heard) {s : State} (h : Hears s) (hr : s.lif.receiver ≠ .off) :
    (unitsHear hd (actOnHeard hd) s).Agrees := by
  have h' := notePacket_hears (classesOf hd) h
  unfold unitsHear
  dsimp only
  split
  · exact h'.agrees
  · cases hd with
    | unreadable e => exact hearUnreadable_agrees h'
    | readable k => exact hearReadable_agrees k h' (by simpa [notePacket] using hr)

/-- A packet is heard, where one can be. -/
theorem hear_agrees (hd : Heard) {s : State} (h : s.Agrees) : (hear hd (actOnHeard hd) s).Agrees := by
  unfold hear
  split
  · rename_i hc
    obtain ⟨hr, hf, hi⟩ := (canHear_iff s).1 hc
    have hon := Lif.receiver_frameEnds s.lif (classesOf hd)
    refine unitsHear_agrees hd ⟨?_, hr, by simpa using hi⟩ hon
    exact Agree.sameReceiver h (by simp [hon, Receiver.on_of_follows hf]) (.inl (by simp))
  · exact h

/-- The receiver rearms, and a packet judged in error is heard. -/
theorem execReceiverRearm_agrees (judged : Option Heard) {s t : State} (h : s.Agrees)
    (ht : execReceiverRearm judged s = .next t) : t.Agrees := by
  cases ht
  split
  · rename_i hc
    simp only [canRearm, Bool.and_eq_true, Bool.not_eq_true', bne_iff_ne] at hc
    obtain ⟨⟨hr, hon⟩, hi⟩ := hc
    have h' : (s.onLif Lif.rearm).Agrees := Agree.sameReceiver h (by simp [Lif.rearm, hon]) (.inl rfl)
    unfold rearm
    split
    · exact h'
    · split
      · exact unitsHear_agrees _ ⟨h', hr, hi⟩ Receiver.noConfusion
      · exact h'
  · exact h

/-- The row of a readable packet is that packet heard. -/
theorem exec_row (k : Packet) (s : State) : exec k.row s = .next (hear (.readable k) (actOn k) s) := by
  cases k <;> rfl

end Sys2Proof.Machine
end

section
/-! PROOF. Driving and sending packets, contention, the windows, the resets and the life-cycle commands keep the agreement of the core. -/

namespace Sys2Proof.Machine

/-! ### Driving keeps the agreement -/

/-- R17, R34: activity reported. -/
theorem reportActivity_agrees {s : State} (h : s.Agrees) (hr : s.lif.receiver ≠ .off) : (reportActivity s).Agrees := by
  have hl : Agree s.startup s.lif.departs s.mem s.pos := Agree.sameReceiver h (by simp [Lif.departs, hr]) (.inl rfl)
  exact Agree.samePossession (endHandover_agree hl) rfl (by simp [reportActivity, Pos.activity]) rfl Iff.rfl

/-- A receiver that is off stays off, and one that is on stays on. -/
theorem Receiver.off_iff_off (r : Receiver) {d : Receiver} (hd : d ≠ .off) : (if r = .off then .off else d) = .off ↔ r = .off := by
  split <;> simp [*]

/-- R28: the LIF begins to drive the packet that waits. -/
theorem beginDriving_agrees {s : State} {tx : Tx} (h : s.Agrees) (hd : s.lif.driver = .waiting tx) :
    (beginDriving tx s).Agrees := by
  have drives : ∀ t : State, t.Agrees → t.lif.driver = .waiting tx → (t.onLif (fun l => { l with
      driver := .driving tx, released := none, receiver := if l.receiver = .off then .off else .delimiter })).Agrees := by
    intro t ht hw
    exact Agree.sameReceiver ht (Receiver.off_iff_off _ Receiver.noConfusion) (.inl (by rw [hw]; rfl))
  unfold beginDriving
  dsimp only
  split
  · rename_i ha
    exact drives _ (reportActivity_agrees h (by rw [ha]; decide)) hd
  · exact drives s h hd

/-- What the sending of any packet changes first: the driver is released, and the station otherwise stands as it did. -/
structure Sent (s t : State) : Prop where
  startup : t.startup = s.startup
  mem : t.mem = s.mem
  receiver : t.lif.receiver = .off ↔ s.lif.receiver = .off
  released : t.lif.driver = .released
  state : t.pos.state = s.pos.state
  slot : t.pos.slot = s.pos.slot
  handover : t.pos.handover = s.pos.handover
  turnaround : t.pos.turnaround = s.pos.turnaround

theorem sentBy_sent (tx : Tx) (s : State) : Sent s (sentBy tx s) := by
  have hr : s.lif.sent.receiver = .off ↔ s.lif.receiver = .off := Receiver.off_iff_off _ Receiver.noConfusion
  unfold sentBy
  dsimp only
  split <;> exact ⟨rfl, rfl, hr, rfl, rfl, rfl, rfl, rfl⟩

/-- A station in the view that has just sent a packet of its own possession. -/
structure HasSent (s : State) : Prop where
  agrees : s.Agrees
  awake : s.inReset = false
  inView : s.inView = true
  released : s.lif.driver = .released
  state : s.pos.state.mayDrive = true
  window : s.pos.turnaround = none

theorem HasSent.chooses {s t : State} (h : HasSent s) (c : SameCore s t) : (choose t).Agrees :=
  choose_agrees (c.agrees h.agrees) (c.inView.trans h.inView) (c.inReset.trans h.awake) (by rw [c.pos]; exact h.state)
    (by rw [c.pos]; exact h.window)

/-- The slot opens over a state that differs in the notes of the POS and the cursor. -/
theorem HasSent.opensSlot {s t : State} (h : HasSent s) (d : Station) (tag : Byte) (owner : SlotOwner)
    (hu : t.startup = s.startup := by rfl) (hl : t.lif = s.lif := by rfl) (hv : t.mem.view = s.mem.view := by rfl)
    (hj : t.mem.joinPending = s.mem.joinPending := by rfl) (ht : t.pos.turnaround = s.pos.turnaround := by rfl) :
    (openSlot d tag owner t).Agrees := by
  have hi : s.startup.life.inView = true := by rw [← State.inView_eq]; exact h.inView
  have hm' : Agree s.startup s.lif t.mem s.pos := Agree.newView h.agrees hi (by rw [hv]; exact h.agrees.member hi) hj
  rw [State.Agrees, openSlot, State.startup_onPos, State.lif_onPos, State.mem_onPos, State.pos_onPos, hu, hl]
  exact Agree.awaits hm' hi (by rw [h.released]; rfl) (.inl ⟨rfl, ht.trans h.window⟩)

/-- R144, R145: a MESSAGE packet is sent. -/
theorem messageSent_agrees (hd : Head) (ack : Bool) (take : Msg → Msg × List EventRecord) {s : State} (h : HasSent s) :
    (messageSent hd ack take s).Agrees := by
  have c : SameCore s (((lowerMessageCredits hd s).onMsg (fun _ => (take (lowerMessageCredits hd s).msg).1)).raiseAll
      (take (lowerMessageCredits hd s).msg).2) := (((SameCore.refl s).onMsg _).onMsg _).raiseAll _
  unfold messageSent
  dsimp only
  split
  · exact h.opensSlot _ _ _ c.startup c.lif (by rw [c.mem]) (by rw [c.mem]) (by rw [c.pos])
  · exact h.chooses c

/-- R131: a READ or WRITE packet is sent. -/
theorem requestSent_agrees (hd : Head) {s : State} (h : HasSent s) : (requestSent hd s).Agrees := by
  unfold requestSent
  dsimp only
  split
  · exact h.opensSlot _ _ _
  · exact Agree.samePossession h.agrees rfl Iff.rfl rfl Iff.rfl

/-- R65: an INVITE packet is sent. -/
theorem inviteSent_agrees (hd : Head) {s : State} (h : HasSent s) : (inviteSent hd s).Agrees := by
  unfold inviteSent
  split
  · exact h.opensSlot _ _ _
  · exact h.agrees

/-- R114: a SNAPSHOT REQUEST packet is sent. -/
theorem snapshotRequestSent_agrees (hd : Head) {s : State} (h : HasSent s) : (snapshotRequestSent hd s).Agrees := by
  unfold snapshotRequestSent
  split
  · exact h.opensSlot _ _ _
  · exact h.agrees

/-- A station of the view is configured. -/
theorem life_ne_of_inView {s : State} (h : s.inView = true) : s.startup.life ≠ .unconfigured := by
  intro e; rw [State.inView_eq, e] at h; cases h

/-- R71: the LEAVE packet is sent. -/
theorem leaveSent_agrees {s : State} (h : HasSent s) : (leaveSent s).Agrees := by
  unfold leaveSent
  split
  · exact leftWall_agrees h.agrees (life_ne_of_inView h.inView)
  · exact choose_agrees (Agree.samePossession h.agrees rfl Iff.rfl rfl Iff.rfl) h.inView h.awake h.state h.window

/-- R45: the HANDOVER packet is sent. -/
theorem handoverSent_agrees {s : State} (h : HasSent s) : (handoverSent s).Agrees :=
  Agree.awaits h.agrees (by rw [← State.inView_eq]; exact h.inView) (by rw [h.released]; rfl) (.inr ⟨rfl, rfl⟩)

/-- R85, R118: the station's own STATUS packet. -/
theorem statusSent_core (hd : Head) (p : Payload StatusBody) (s : State) : SameCore s (statusSent hd p s) := by
  unfold statusSent
  exact ((onStatus_core hd p s).onAgr _).onPal _

/-- What follows a packet of the station's own possession, class by class. -/
theorem afterSent_agrees (c : TxClass) (k : Packet) {s : State} (h : HasSent s) (hc : c ≠ .reply) : (afterSent c k s).Agrees := by
  unfold afterSent
  split
  · exact h.chooses (.refl s)
  · exact h.chooses (statusSent_core _ _ s)
  · exact h.chooses ((onCommit_core _ _ s).onAgr _)
  · exact h.chooses ((SameCore.refl s).onPal _)
  · exact h.chooses ((SameCore.refl s).onAtt _)
  · exact snapshotRequestSent_agrees _ h
  · exact messageSent_agrees _ _ _ h
  · exact messageSent_agrees _ _ _ h
  · exact messageSent_agrees _ _ _ h
  · exact h.chooses (((SameCore.refl s).onPal _).trans (onPalette_core _ _ _))
  · exact requestSent_agrees _ h
  · exact inviteSent_agrees _ h
  · exact handoverSent_agrees h
  · exact leaveSent_agrees h
  · exact leftWall_agrees h.agrees (life_ne_of_inView h.inView)
  · exact absurd rfl hc
  · exact h.agrees

/-- R29: the packet that the LIF drives is sent. -/
theorem packetSent_agrees {s : State} {tx : Tx} (h : s.Agrees) (hr : s.inReset = false) (hd : s.lif.driver = .driving tx) :
    (packetSent tx s).Agrees := by
  have st := sentBy_sent tx s
  have htx : s.lif.driver.tx = some tx := by rw [hd]; rfl
  obtain ⟨_, hm, hw⟩ := h.driver (by rw [htx]; exact Option.some_ne_none tx)
  have ha : (sentBy tx s).Agrees := by
    rw [State.Agrees, st.startup, st.mem]
    exact Agree.samePossession (Agree.sameReceiver h st.receiver (.inr (by rw [st.released]; rfl))) st.state
      (by rw [st.slot]) st.handover (by rw [st.turnaround])
  have hr' : (sentBy tx s).inReset = false := by rw [State.inReset_eq, st.startup]; exact hr
  by_cases hc : tx.cls = .reply
  · have hl : packetSent tx s = (sentBy tx s).setPossession .listening := by rw [packetSent, hc]; rfl
    have hsl : (sentBy tx s).pos.slot = none := Agree.no_slot ha (fun e => by rw [st.state] at e; rw [e] at hm; cases hm)
    have hb : (sentBy tx s).startup.life.onBus = true := Agree.onBus ha (by rw [st.state]; exact mayDrive_not_quiet hm)
    rw [hl]
    exact Agree.waits ha hb (by rw [st.released]; rfl) (.inl rfl) hsl (.inr rfl) (st.turnaround.trans hw)
  · have hi : (sentBy tx s).inView = true := by
      rw [State.inView_eq, st.startup]; exact Agree.inView_of_tx h htx hc
    exact afterSent_agrees _ _ ⟨ha, hr', hi, st.released, by rw [st.state]; exact hm, by rw [st.turnaround]; exact hw⟩ hc

theorem Driver.driven_eq_some {d : Driver} {tx : Tx} : d.driven = some tx ↔ d = .driving tx := by
  cases d <;> simp [Driver.driven]

/-- R50, R51: contention. -/
theorem contend_agrees (kind : DriveFault) {s : State} {tx : Tx} (h : s.Agrees) (hd : s.lif.driver = .driving tx) :
    (contend kind s).Agrees := by
  obtain ⟨_, hm, _⟩ := h.driver (by rw [hd]; exact Option.some_ne_none tx)
  have hb := h.onBus (mayDrive_not_quiet hm)
  unfold contend
  refine ((((SameCore.refl _).onAgr _).onPal _).raise _).agrees ?_
  exact Agree.waits (p' := s.pos.enterHold s.cfg.recovery kind) 
    (Agree.sameReceiver h (Receiver.off_iff_off _ Receiver.noConfusion) (.inr rfl)) hb rfl (.inr rfl) rfl (.inl rfl) rfl

/-- R53, R54: a bus hold ends. -/
theorem endHold_agrees {s : State} (h : s.Agrees) (hp : s.pos.state = .busHold) (fault : Option DriveFault) :
    (s.onPos (fun p => { p.endHold with fault := fault })).Agrees := by
  have hsl : s.pos.slot = none := Agree.no_slot h (by rw [hp]; decide)
  have ht : s.pos.turnaround = none := Agree.no_window h (by rw [hp]; decide)
  exact Agree.waits h (Agree.onBus h (by rw [hp]; decide)) (Agree.no_tx h (by rw [hp]; rfl)) (.inl rfl) hsl (.inr rfl) ht

/-- R47: attempt 2 of a handover. -/
theorem secondAttempt_agrees {s : State} (run : HandoverRun) (h : s.Agrees) (hr : s.inReset = false) (hv : s.inView = true)
    (hp : s.pos.state = .handingOver) : (secondAttempt run s).Agrees := by
  have hsl : s.pos.slot = none := Agree.no_slot h (by rw [hp]; decide)
  have hm : s.pos.state.mayDrive = true := by rw [hp]; rfl
  exact Agree.possesses h (by rw [← State.inView_eq]; exact hv) hr Iff.rfl hm hsl rfl

/-- R47, R70: the silent successor leaves the view, and the next one is named. -/
theorem passOver_agrees {s : State} (run : HandoverRun) (h : s.Agrees) (hr : s.inReset = false) (hv : s.inView = true)
    (hp : s.pos.state = .handingOver) (hn : run.successor ≠ s.number) : (passOver run s).Agrees := by
  have hi : s.startup.life.inView = true := by rw [← State.inView_eq]; exact hv
  have hsl : s.pos.slot = none := Agree.no_slot h (by rw [hp]; decide)
  have hm : s.pos.state.mayDrive = true := by rw [hp]; rfl
  have hin : inSet s.startup.number (removeFrom run.successor s.mem.view) = true := by
    rw [inSet_removeFrom, h.member hi, decide_eq_false (fun e => hn (by rw [State.number, e]))]; rfl
  have c := removeSilent_core run.successor s
  unfold passOver
  generalize removeSilent run.successor s = r at c
  rw [State.setView] at c
  have ha : r.Agrees := c.agrees (Agree.newView h hi hin rfl)
  refine Agree.possesses ha (by rw [c.startup]; exact hi) (c.inReset.trans hr) Iff.rfl ?_ ?_ rfl
  · show r.pos.state.mayDrive = true
    rw [c.pos]; exact hm
  · show r.pos.slot = none
    rw [c.pos]; exact hsl

/-- R47, R48: a turnaround window ends. -/
theorem windowEnds_agrees {s : State} (run : HandoverRun) (h : s.Agrees) (hr : s.inReset = false) (hv : s.inView = true)
    (hp : s.pos.state = .handingOver) : (windowEnds run s).Agrees := by
  unfold windowEnds
  split
  · exact beginPossession_agrees h hv hr
  · rename_i hn
    split
    · exact secondAttempt_agrees run h hr hv hp
    · exact passOver_agrees run h hr hv hp hn

/-! ### Resets and commands keep the agreement -/

/-- R1, R34: a reset in force: the driver released, the receiver off. -/
theorem inReset_agrees {s : State} (h : s.Agrees) (f : Startup → Startup) (hf : (f s.startup).life = s.startup.life ∧
    (f s.startup).config = s.startup.config ∧ (f s.startup).number = s.startup.number) (hr : (f s.startup).inReset = true) :
    ((holdReset s).onStartup f).Agrees := by
  obtain ⟨hl, hc, hn⟩ := hf
  exact {
    member := fun e => by
      show inSet (f s.startup).number s.mem.view = true
      rw [hn]; exact h.member (by rw [← hl]; exact e)
    outside := fun e => by
      obtain ⟨h1, h2, h3, _⟩ := h.outside (by rw [← hl]; exact e)
      exact ⟨h1, h2, h3, fun tx e => by cases e⟩
    joining := h.joining.trans (by rw [← hl]; exact Iff.rfl)
    config := by
      show (f s.startup).config = none ↔ (f s.startup).life = .unconfigured
      rw [hl, hc]; exact h.config
    receiver := ⟨fun e => absurd rfl e, fun e => by
      have e' : (f s.startup).inReset = false := e.1
      rw [hr] at e'; cases e'⟩
    quiet := h.quiet.trans (by rw [← hl]; exact Iff.rfl)
    driver := fun e => absurd rfl e
    window := h.window
    slot := h.slot }

/-- One reset of two ends: the other holds the station. -/
theorem stillInReset_agrees {s : State} (h : s.Agrees) (f : Startup → Startup) (hf : (f s.startup).life = s.startup.life ∧
    (f s.startup).config = s.startup.config ∧ (f s.startup).number = s.startup.number)
    (hr : s.startup.inReset = true ∧ (f s.startup).inReset = true) : (s.onStartup f).Agrees := by
  obtain ⟨hl, hc, hn⟩ := hf
  obtain ⟨hr, hr'⟩ := hr
  rw [State.Agrees, State.startup_onStartup]
  have hd : s.lif.driver.tx = none := by
    by_contra hd
    rw [(h.driver hd).1] at hr; cases hr
  have hu : ∀ e, (f s.startup).inReset = false → e := fun e he => by rw [hr'] at he; cases he
  exact {
    member := fun e => by
      show inSet (f s.startup).number s.mem.view = true
      rw [hn]; exact h.member (by rw [← hl]; exact e)
    outside := fun e => h.outside (by rw [← hl]; exact e)
    joining := by rw [hl]; exact h.joining
    config := by rw [hl, hc]; exact h.config
    receiver := h.receiver.trans ⟨fun e => (by rw [hr] at e; cases e.1), fun e => hu _ e.1⟩
    quiet := by rw [hl]; exact h.quiet
    driver := fun e => absurd hd e
    window := h.window
    slot := h.slot }

/-- R2: a station whose last reset has ended. -/
theorem endReset_agrees (straps : Straps) (s : State) : (endReset straps s).Agrees :=
  Agree.offBus rfl ⟨rfl, rfl⟩ (by simp [endReset, State.afterReset])
    ⟨fun e => absurd rfl e, fun e => (by cases e.2)⟩ rfl ⟨rfl, rfl, rfl, rfl⟩

/-- A command is taken outside a reset; where none is taken the core stays. -/
theorem takeCommand_agrees (f : State → State × Response) {s : State} (h : s.Agrees)
    (hf : s.inReset = false → (f s).1.Agrees) : (takeCommand f s).Agrees := by
  unfold takeCommand
  split
  · rename_i hc
    simp only [canTake, Bool.and_eq_true, Bool.not_eq_true'] at hc
    exact ((SameCore.refl _).onCpe _).agrees (hf hc.1)
  · exact ((SameCore.refl _).onCpe _).agrees h

/-- R3: the CONFIGURE command. -/
theorem configureCommand_agrees (p a d h o r : Byte) {s : State} (hs : s.Agrees) :
    (configureCommand p a d h o r s).1.Agrees := by
  unfold configureCommand
  split
  · exact hs
  · rename_i hl
    rw [not_not] at hl
    split
    · exact hs
    · have hv : s.startup.life.inView = false := by rw [hl]; rfl
      obtain ⟨h1, h2, h3, _⟩ := hs.outside hv
      have hq : s.pos.state = .quiet := hs.quiet.2 (by rw [hl]; rfl)
      have ht : s.pos.turnaround = none := Agree.no_window hs (by rw [hq]; decide)
      refine Agree.offBus rfl ⟨h1, ?_⟩ ⟨fun e => (by cases e), fun e => (by cases e)⟩ ?_
        (Agree.no_tx hs (by rw [hq]; rfl)) ⟨hq, h2, h3, ht⟩
      · have hj := hs.joining
        rw [hl] at hj
        simpa using hj
      · have hr := hs.receiver
        rw [hl] at hr
        exact hr

/-- R5: the GO command. -/
theorem goCommand_agrees {s : State} (hs : s.Agrees) (hr : s.inReset = false) : (goCommand s).1.Agrees := by
  unfold goCommand
  split
  · exact hs
  · rename_i hl
    rw [not_not] at hl
    obtain ⟨h1, h2, h3, _⟩ := hs.outside (by rw [hl]; rfl)
    have hq : s.pos.state = .quiet := hs.quiet.2 (by rw [hl]; rfl)
    have hd := Agree.no_tx hs (by rw [hq]; rfl)
    have ht := Agree.no_window hs (by rw [hq]; decide)
    exact {
      member := fun e => by cases e
      outside := fun _ => ⟨h1, h2, h3, fun tx e => by rw [show s.lif.driver.tx = some tx from e] at hd; cases hd⟩
      joining := ⟨fun _ => rfl, fun _ => rfl⟩
      config := ⟨fun e => (by rw [hs.config.1 e] at hl; cases hl), fun e => by cases e⟩
      receiver := ⟨fun _ => ⟨hr, rfl⟩, fun _ => Receiver.noConfusion⟩
      quiet := ⟨fun e => (by cases e), fun e => by cases e⟩
      driver := fun e => absurd hd e
      window := fun e => absurd ht e
      slot := fun e => absurd h2 e }

/-- R7: the LEAVE command. -/
theorem leaveCommand_agrees {s : State} (hs : s.Agrees) : (leaveCommand s).1.Agrees := by
  cases hl : s.startup.life with
  | member =>
    simp only [leaveCommand, hl]
    have hm := hs.member (by rw [hl]; rfl)
    have hj := hs.joining
    have hc := hs.config
    have hr := hs.receiver
    have hq := hs.quiet
    rw [hl] at hj hc hr hq
    exact {
      member := fun _ => hm
      outside := fun e => by cases e
      joining := hj.trans ⟨fun e => (by cases e), fun e => (by cases e)⟩
      config := hc.trans ⟨fun e => (by cases e), fun e => (by cases e)⟩
      receiver := hr
      quiet := hq
      driver := hs.driver
      window := hs.window
      slot := hs.slot }
  | joinPending =>
    simp only [leaveCommand, hl]
    obtain ⟨h1, _⟩ := hs.outside (by rw [hl]; rfl)
    exact Agree.offBus rfl ⟨h1, rfl⟩ ⟨fun e => (by rw [hs.config.1 e] at hl; cases hl), fun e => by cases e⟩
      ⟨fun e => absurd rfl e, fun e => (by cases e.2)⟩ rfl ⟨rfl, rfl, rfl, rfl⟩
  | unconfigured => simpa only [leaveCommand, hl] using hs
  | standby => simpa only [leaveCommand, hl] using hs
  | leaving => simpa only [leaveCommand, hl] using hs
  | halted => simpa only [leaveCommand, hl] using hs

/-- R12: the RESTART command. -/
theorem restartCommand_agrees {s : State} (hs : s.Agrees) : (restartCommand s).1.Agrees := by
  unfold restartCommand
  split
  · exact hs
  · rename_i hl
    exact Agree.offBus rfl ⟨rfl, rfl⟩ ⟨fun e => absurd (hs.config.1 e) hl, fun e => by cases e⟩
      ⟨fun e => absurd rfl e, fun e => (by cases e.2)⟩ rfl ⟨rfl, rfl, rfl, rfl⟩

/-- R54: the ACKNOWLEDGE FAULT command. -/
theorem acknowledgeFaultCommand_agrees {s : State} (hs : s.Agrees) : (acknowledgeFaultCommand s).1.Agrees := by
  unfold acknowledgeFaultCommand
  split
  · rename_i hp
    exact endHold_agrees hs hp none
  · split
    · exact Agree.samePossession hs rfl Iff.rfl rfl Iff.rfl
    · exact hs

end Sys2Proof.Machine
end

section
/-! PROOF. Every row of the table and the clock keep the agreement of the core: O60. -/

namespace Sys2Proof.Machine

/-! ### The commands and rows that leave the core as it stands -/

theorem readyCommand_core (n : Seq) (s : State) : SameCore s (readyCommand n s).1 := by
  unfold readyCommand
  split
  · exact .refl s
  · split
    · exact .refl s
    · exact ⟨rfl, rfl, rfl, rfl⟩

theorem submitPaletteCommand_core (e : Seq) (start : BitVec 16) (ws : List Value) (s : State) :
    SameCore s (submitPaletteCommand e start ws s).1 := by
  unfold submitPaletteCommand
  split
  · exact .refl s
  · split
    · exact .refl s
    · split
      · exact .refl s
      · exact ⟨rfl, rfl, rfl, rfl⟩

theorem readPaletteCommand_core (start : BitVec 16) (count : Byte) (s : State) :
    SameCore s (readPaletteCommand start count s).1 := by
  unfold readPaletteCommand; split <;> exact .refl s

theorem readReadinessCommand_core (n : Byte) (s : State) : SameCore s (readReadinessCommand n s).1 := by
  unfold readReadinessCommand; split <;> exact .refl s

theorem readAttributeCommand_core (start count : Byte) (s : State) : SameCore s (readAttributeCommand start count s).1 := by
  unfold readAttributeCommand; split <;> exact .refl s

theorem takeEventCommand_core (s : State) : SameCore s (takeEventCommand s).1 := by
  unfold takeEventCommand
  split
  · exact .refl s
  · exact ⟨rfl, rfl, rfl, rfl⟩

theorem takeMessageCommand_core (s : State) : SameCore s (takeMessageCommand s).1 := by
  unfold takeMessageCommand
  split
  · exact .refl s
  · exact ⟨rfl, rfl, rfl, rfl⟩

theorem sendMessageCommand_core (d st k c : Byte) (payload : List Byte) (s : State) :
    SameCore s (sendMessageCommand d st k c payload s).1 := by
  unfold sendMessageCommand
  split
  · exact .refl s
  · split
    · exact .refl s
    · split
      · split
        · exact .refl s
        · split
          · exact .refl s
          · exact ⟨rfl, rfl, rfl, rfl⟩
      · exact .refl s

theorem writeAttributeCommand_core (i : Byte) (v : Value) (s : State) : SameCore s (writeAttributeCommand i v s).1 := by
  unfold writeAttributeCommand
  split
  · exact .refl s
  · split
    · exact .refl s
    · exact ⟨rfl, rfl, rfl, rfl⟩

theorem remoteCommand_core (target : Byte) (inRange : Bool) (k : RequestKind) (s : State) :
    SameCore s (remoteCommand target inRange k s).1 := by
  unfold remoteCommand
  split
  · exact .refl s
  · split
    · exact .refl s
    · split
      · exact .refl s
      · split
        · exact .refl s
        · split
          · exact .refl s
          · exact ⟨rfl, rfl, rfl, rfl⟩

theorem takeResultCommand_core (tag : Byte) (s : State) : SameCore s (takeResultCommand tag s).1 := by
  unfold takeResultCommand
  split
  · exact .refl s
  · split
    · exact .refl s
    · exact ((SameCore.refl s).onAtt _).useFree _

/-- R172, R173: a frame pulse at a member. -/
theorem actOnPulse_core (s : State) : SameCore s (actOnPulse s) := by
  have c := (((SameCore.refl s).onAgr (fun _ => (s.agr.pulse s.cfg.deadline s.mem.view).1)).onPal
    (fun _ => (s.pal.pulse (s.agr.pulse s.cfg.deadline s.mem.view).1.l s.agr.presents).1)).raiseBoth
    (s.agr.pulse s.cfg.deadline s.mem.view).2 (s.pal.pulse (s.agr.pulse s.cfg.deadline s.mem.view).1.l s.agr.presents).2
  unfold actOnPulse
  dsimp only
  split
  · exact c.onOutputs _
  · exact c

/-- R171, R172: the confirmation ends. -/
theorem confirmEdge_core (s : State) : SameCore s (confirmEdge s) := by
  unfold confirmEdge
  dsimp only
  split
  · exact (SameCore.refl s).onFrame _
  · split
    · exact (((SameCore.refl s).onFrame _).onFrame _).trans (actOnPulse_core _)
    · exact ((SameCore.refl s).onFrame _).onFrame _

/-- R173, R174: the running application writes its last entry. -/
theorem completeApplication_core (s : State) : SameCore s (completeApplication s) := by
  unfold completeApplication
  dsimp only
  split
  · exact ((SameCore.refl s).onPal _).onOutputs _
  · exact (SameCore.refl s).onPal _

/-- One clock period moves the timers alone. -/
theorem tick_agrees {s : State} (h : s.Agrees) : (tick s).Agrees := by
  unfold tick
  split
  · exact h
  · have hl : Agree s.startup { s.lif with released := Timer.tick Config.guard s.lif.released } s.mem s.pos :=
      Agree.sameReceiver h Iff.rfl (.inl rfl)
    exact Agree.samePossession (p' := s.pos.tick (silenceCounts s) s.number) hl rfl (by simp [Pos.tick]) rfl
      (by simp [Pos.tick, Timer.tick])

theorem closeFrame_core (r : Option Response) (s : State) : SameCore s (closeFrame r s) := (SameCore.refl s).onCpe _

/-- A command that leaves the core as it stands. -/
theorem takeCommand_core {f : State → State × Response} {s : State} (h : s.Agrees) (c : SameCore s (f s).1) :
    (takeCommand f s).Agrees := takeCommand_agrees f h (fun _ => c.agrees h)

/-! ### The timers' rows keep the agreement -/

theorem execReplyWindowEnd_agrees {s t : State} (h : s.Agrees) (ht : execReplyWindowEnd s = .next t) : t.Agrees := by
  cases ht
  split
  · rename_i sl hs
    split
    · rename_i hc
      simp only [Bool.and_eq_true, Bool.not_eq_true'] at hc
      exact resume_slotOutcome_agrees sl .noReply h hc.1.1 (by rw [hs]; exact Option.some_ne_none sl)
    · exact h
  · exact h

theorem execTurnaroundWindowEnd_agrees {s t : State} (h : s.Agrees) (ht : execTurnaroundWindowEnd s = .next t) : t.Agrees := by
  cases ht
  split
  · rename_i run hrun
    split
    · rename_i hc
      simp only [Bool.and_eq_true, Bool.not_eq_true', beq_iff_eq] at hc
      have hv : s.inView = true := by
        by_contra hv
        rw [State.inView_eq] at hv
        rw [(h.outside (by simpa using hv)).2.2.1] at hrun
        cases hrun
      exact windowEnds_agrees run h hc.1.1 hv hc.1.2
    · exact h
  · exact h

theorem execClaimDelayExpiry_agrees {s t : State} (h : s.Agrees) (ht : execClaimDelayExpiry s = .next t) : t.Agrees := by
  cases ht
  split
  · rename_i hc
    simp only [Bool.and_eq_true, Bool.not_eq_true'] at hc
    exact claimPossession_agrees h hc.1.2 hc.1.1
  · exact h

theorem execFoundingSilenceExpiry_agrees {s t : State} (h : s.Agrees) (ht : execFoundingSilenceExpiry s = .next t) :
    t.Agrees := by
  cases ht
  split
  · rename_i hc
    simp only [Bool.and_eq_true, Bool.not_eq_true', beq_iff_eq] at hc
    obtain ⟨⟨hr, hl⟩, _⟩ := hc
    have hn : inSet s.number (single s.number) = true := by simp [inSet_single]
    exact claimPossession_agrees (s := found s) (enterView_agrees true _ _ h hl hn) rfl hr
  · exact h

theorem execBusHoldIntervalExpiry_agrees {s t : State} (h : s.Agrees) (ht : execBusHoldIntervalExpiry s = .next t) :
    t.Agrees := by
  cases ht
  split
  · rename_i hc
    simp only [Bool.and_eq_true, beq_iff_eq] at hc
    exact endHold_agrees h hc.1.2 s.pos.fault
  · exact h

/-! ### Every step keeps the agreement -/

/-- A row of the table keeps the agreement. -/
theorem exec_agrees (i : Instr) {s t : State} (h : s.Agrees) (ht : exec i s = .next t) : t.Agrees := by
  have next : ∀ {u : State}, Host.Outcome.next u = (.next t : Host.Outcome State Fault Refusal) → u.Agrees → t.Agrees := by
    rintro u ⟨⟩ hu; exact hu
  have heard : ∀ k : Packet, exec k.row s = .next t → t.Agrees := fun k hk =>
    next ((exec_row k s).symm.trans hk) (hear_agrees (.readable k) h)
  cases i with
  | powerOnReset => exact next ht (inReset_agrees h _ ⟨rfl, rfl, rfl⟩ rfl)
  | pinResetAssert => exact next ht (inReset_agrees h _ ⟨rfl, rfl, rfl⟩ (by simp [Startup.inReset]))
  | powerOnResetEnd straps =>
    refine next ht ?_
    split
    · rename_i hp
      exact stillInReset_agrees h _ ⟨rfl, rfl, rfl⟩ (by simp [Startup.inReset, hp])
    · exact endReset_agrees straps s
  | pinResetRelease straps =>
    refine next ht ?_
    split
    · rename_i hp
      exact stillInReset_agrees h _ ⟨rfl, rfl, rfl⟩ (by simp [Startup.inReset, hp])
    · exact endReset_agrees straps s
  | transactionOpen => exact next ht (((SameCore.refl s).onCpe _).agrees h)
  | refusedFormat bits =>
    replace ht : execRefusedFormat bits s = .next t := ht
    unfold execRefusedFormat at ht
    split at ht
    · exact next ht ((closeFrame_core _ s).agrees h)
    · exact next ht ((closeFrame_core _ s).agrees h)
    · cases ht
  | noOperation => exact next ht (takeCommand_core h (.refl s))
  | readState => exact next ht (takeCommand_core h (.refl s))
  | readView => exact next ht (takeCommand_core h (.refl s))
  | readReadiness n => exact next ht (takeCommand_core h (readReadinessCommand_core n s))
  | takeEvent => exact next ht (takeCommand_core h (takeEventCommand_core s))
  | configure p a d hb o r => exact next ht (takeCommand_agrees _ h (fun _ => configureCommand_agrees p a d hb o r h))
  | go => exact next ht (takeCommand_agrees _ h (goCommand_agrees h))
  | leave => exact next ht (takeCommand_agrees _ h (fun _ => leaveCommand_agrees h))
  | restart => exact next ht (takeCommand_agrees _ h (fun _ => restartCommand_agrees h))
  | acknowledgeFault => exact next ht (takeCommand_agrees _ h (fun _ => acknowledgeFaultCommand_agrees h))
  | ready n => exact next ht (takeCommand_core h (readyCommand_core n s))
  | submitPalette e start ws => exact next ht (takeCommand_core h (submitPaletteCommand_core e start ws s))
  | readPalette start n => exact next ht (takeCommand_core h (readPaletteCommand_core start n s))
  | sendMessage d st k c payload => exact next ht (takeCommand_core h (sendMessageCommand_core d st k c payload s))
  | takeMessage => exact next ht (takeCommand_core h (takeMessageCommand_core s))
  | readAttribute start n => exact next ht (takeCommand_core h (readAttributeCommand_core start n s))
  | writeAttribute i v => exact next ht (takeCommand_core h (writeAttributeCommand_core i v s))
  | remoteRead target start n => exact next ht (takeCommand_core h (remoteCommand_core target _ _ s))
  | remoteWrite target i v => exact next ht (takeCommand_core h (remoteCommand_core target _ _ s))
  | takeResult tag => exact next ht (takeCommand_core h (takeResultCommand_core tag s))
  | activity =>
    refine next ht ?_
    split
    · exact h
    · rename_i hc
      simp only [Bool.or_eq_true, bne_iff_ne, not_or, not_not] at hc
      exact reportActivity_agrees h (by rw [hc.2]; decide)
  | receiverRearm judged => exact execReceiverRearm_agrees judged h ht
  | unreadablePacketHeard u => exact next ht (hear_agrees (.unreadable u) h)
  | lifBeginDriving =>
    refine next ht ?_
    split
    · rename_i tx hd
      split
      · exact h
      · exact beginDriving_agrees h hd
    · exact h
    · exact h
  | packetSent =>
    refine next ht ?_
    split
    · rename_i tx hd
      split
      · exact h
      · rename_i hr
        exact packetSent_agrees h (by simpa using hr) (Driver.driven_eq_some.1 hd)
    · exact h
  | contention kind =>
    refine next ht ?_
    split
    · rename_i tx hd
      split
      · exact h
      · exact contend_agrees kind h (Driver.driven_eq_some.1 hd)
    · exact h
  | handoverHeard hd a v f => exact heard (.handover hd a v f) ht
  | claimHeard hd f => exact heard (.claim hd f) ht
  | inviteHeard hd f => exact heard (.invite hd f) ht
  | joinHeard hd p f => exact heard (.join hd p f) ht
  | leaveHeard hd f => exact heard (.leave hd f) ht
  | statusHeard hd p => exact heard (.status hd p) ht
  | commitHeard hd p => exact heard (.commit hd p) ht
  | paletteHeard hd p => exact heard (.palette hd p) ht
  | snapshotRequestHeard hd f => exact heard (.snapshotRequest hd f) ht
  | snapshotHeard hd part p => exact heard (.snapshot hd part p) ht
  | replayHeard hd p => exact heard (.replay hd p) ht
  | messageHeard hd a st p => exact heard (.message hd a st p) ht
  | readHeard hd a n f => exact heard (.read hd a n f) ht
  | writeHeard hd i v f => exact heard (.write hd i v f) ht
  | readReturnHeard hd a n p => exact heard (.readReturn hd a n p) ht
  | ackHeard hd r c f => exact heard (.ack hd r c f) ht
  | replyWindowEnd => exact execReplyWindowEnd_agrees h ht
  | turnaroundWindowEnd => exact execTurnaroundWindowEnd_agrees h ht
  | claimDelayExpiry => exact execClaimDelayExpiry_agrees h ht
  | foundingSilenceExpiry => exact execFoundingSilenceExpiry_agrees h ht
  | busHoldIntervalExpiry => exact execBusHoldIntervalExpiry_agrees h ht
  | snapshotWaitExpiry =>
    refine next ht ?_
    split
    · exact ((SameCore.refl s).onPal _).agrees h
    · exact h
  | requestTimeout tag =>
    refine next ht ?_
    split
    · exact h
    · exact (((SameCore.refl s).onAtt _).raiseAll _).agrees h
  | frameLowQualified =>
    refine next ht ?_
    split
    · exact ((SameCore.refl s).onFrame _).agrees h
    · exact h
  | frameRisingEdge =>
    refine next ht ?_
    split
    · exact h
    · exact ((SameCore.refl s).onFrame _).agrees h
  | frameGlitch =>
    refine next ht ?_
    split
    · exact ((SameCore.refl s).onFrame _).agrees h
    · exact h
  | framePulse =>
    refine next ht ?_
    split
    · exact (confirmEdge_core s).agrees h
    · exact h
  | spacingWindowClose =>
    refine next ht ?_
    split
    · exact h
    · exact ((SameCore.refl s).onFrame _).agrees h
  | applicationComplete =>
    refine next ht ?_
    split
    · exact h
    · exact (completeApplication_core s).agrees h
  | presentPulseEnd => exact next ht (((SameCore.refl s).onOutputs _).agrees h)
  | paletteLookup i =>
    refine next ht ?_
    split
    · exact h
    · exact (((SameCore.refl s).onOutputs _).useFree _).agrees h
  | frameFallingEdge =>
    refine next ht ?_
    split
    · exact h
    · exact ((SameCore.refl s).onFrame _).agrees h

/-- A step, of the front command or of the clock, keeps the agreement. -/
theorem step_agrees {s t : State} (h : s.Agrees) (ht : step s = .next t) : t.Agrees := by
  unfold step at ht
  split at ht
  · cases ht
    exact tick_agrees h
  · rename_i c rest hp
    exact exec_agrees c (s := { s with pending := rest }) h ht

/-- The agreement is a part of the station's invariant. -/
theorem agrees_of_stationInvariant {s : State} (h : stationInvariant s = true) : s.Agrees := by
  simp only [stationInvariant, Bool.and_eq_true] at h
  obtain ⟨⟨⟨⟨⟨⟨⟨_, hv⟩, hp⟩, hj⟩, hc⟩, hr⟩, hq⟩, hd⟩ := h
  exact (agrees_iff s).2 ⟨hv, hp, hj, hc, hr, hq, hd⟩

/-- Settles O60: the agreement of the start-up logic, the LIF, the MEM and the POS is kept by every row of the table and by the clock,
and it is what the seven statements say together. -/
theorem stepKeepsTheUnitsInAgreement : Obligations.StepKeepsTheUnitsInAgreement := by
  intro s t hs ht
  exact (agrees_iff t).1 (step_agrees (agrees_of_stationInvariant hs) ht)

end Sys2Proof.Machine
end

section
/-! PROOF. The resets and the commands of the life cycle: O3, O4, O5, O11, O12 and O13. -/

namespace Sys2Proof.Machine

/-! ### Resets and the commands of the life cycle -/

/-- The port when a reset begins: a transaction that is open is abandoned (R1, R156). -/
theorem Port.abandon_eq (p : Port) : p.abandon = (match p with
    | .closed => .closed
    | _ => .abandoned) := by cases p <;> rfl

/-- What is written in the period in which a running application is stopped (R174). -/
theorem Pal.runningWrites_take_one (p : Pal) : p.runningWrites.take 1 = (match p.applications with
    | [] => []
    | a :: _ => a.writes.take 1) := by
  unfold Pal.runningWrites; cases p.applications <;> rfl

/-- A control-port command is not taken in a reset, nor from a transaction that a reset abandoned (R1, R156; log 14). -/
theorem canTake_eq_false {s : State} (h : s.inReset = true ∨ s.cpe.port = .abandoned) : canTake s = false := by
  rcases h with h | h <;> simp [canTake, h]

/-- Each of the twenty control-port commands is taken by `takeCommand` from its owner. -/
theorem exec_eq_takeCommand (i : Instr) (s : State) (h : (encodeFrame i).isSome = true) :
    ∃ f, exec i s = .next (takeCommand f s) := by
  cases i with
  | noOperation => exact ⟨_, rfl⟩
  | readState => exact ⟨_, rfl⟩
  | readView => exact ⟨_, rfl⟩
  | readReadiness _ => exact ⟨_, rfl⟩
  | takeEvent => exact ⟨_, rfl⟩
  | configure _ _ _ _ _ _ => exact ⟨_, rfl⟩
  | go => exact ⟨_, rfl⟩
  | leave => exact ⟨_, rfl⟩
  | restart => exact ⟨_, rfl⟩
  | acknowledgeFault => exact ⟨_, rfl⟩
  | ready _ => exact ⟨_, rfl⟩
  | submitPalette _ _ _ => exact ⟨_, rfl⟩
  | readPalette _ _ => exact ⟨_, rfl⟩
  | sendMessage _ _ _ _ _ => exact ⟨_, rfl⟩
  | takeMessage => exact ⟨_, rfl⟩
  | readAttribute _ _ => exact ⟨_, rfl⟩
  | writeAttribute _ _ => exact ⟨_, rfl⟩
  | remoteRead _ _ _ => exact ⟨_, rfl⟩
  | remoteWrite _ _ _ => exact ⟨_, rfl⟩
  | takeResult _ => exact ⟨_, rfl⟩
  | _ => cases h

theorem anchor_zero : anchor 0 = none := by simp [anchor, members, inSet]

/-- Settles O3: each value is the one written in `State.afterReset`; the bank reads as zero because it lists no entry. -/
theorem resetValues : Obligations.ResetValues := by
  refine ⟨rfl, fun number level free pending => ?_⟩
  have blank : ∀ i, 8 ≤ i → readAttr (State.afterReset number level free pending) i = ⟨0, .localPort⟩ := fun i hi => by
    simp [readAttr, Nat.not_lt.2 hi, State.afterReset, Att.reset, Table.get?, AttrRecord.blank]
  have part : ∀ i, i < 8 → (readAttr (State.afterReset number level free pending) i).writer = .part := fun i hi => by
    simp [readAttr, hi]
  refine ⟨⟨rfl, rfl, rfl, rfl⟩, ⟨rfl, rfl, rfl, rfl⟩, ⟨rfl, rfl, rfl, rfl, rfl, rfl, rfl, rfl⟩, ⟨rfl, anchor_zero, rfl, rfl⟩,
    ⟨rfl, rfl, rfl, rfl, rfl, rfl, rfl, rfl, rfl, rfl⟩,
    ⟨fun _ => rfl, rfl, rfl, rfl, rfl, rfl, rfl, rfl, rfl, rfl, rfl, rfl, rfl, rfl, rfl⟩, ⟨part, blank, rfl, rfl, rfl⟩,
    ⟨rfl, rfl, rfl, rfl, rfl, rfl, rfl⟩, ⟨rfl, rfl, rfl, rfl⟩, ⟨rfl, rfl, rfl, rfl, rfl, rfl⟩, rfl⟩

/-- SDO is released where no transaction is open. -/
theorem sdo_abandon {s : State} {p : Port} (h : s.cpe.port = p.abandon) : sdoDriven s = false ∧ sdo s = none := by
  cases p <;> simp [sdoDriven, sdo, h, Port.abandon]

/-- Settles O4: no command is taken by `takeCommand`, and the two rows that begin a reset are `holdReset`. -/
theorem resetInForceHoldsTheOutputs : Obligations.ResetInForceHoldsTheOutputs := by
  refine ⟨fun i s hi hs => ?_, fun s hs => ?_, fun s c hc => ?_⟩
  · obtain ⟨f, hf⟩ := exec_eq_takeCommand i s hi
    rw [hf, takeCommand_untaken f s (canTake_eq_false hs)]; rfl
  · show Host.Outcome.next (s.onCpe _) = _
    simp only [hs, if_true]; rfl
  · obtain ⟨f, hf, hr, hu⟩ : ∃ f : Startup → Startup, exec c s = .next ((holdReset s).onStartup f) ∧
        (f s.startup).inReset = true ∧ f s.startup =
          (if c = .powerOnReset then { s.startup with powerReset := true } else { s.startup with pinReset := true }) := by
      rcases hc with rfl | rfl
      · exact ⟨_, rfl, rfl, rfl⟩
      · exact ⟨_, rfl, by simp [Startup.inReset], rfl⟩
    refine ⟨_, hf, ?_⟩
    have hin : ((holdReset s).onStartup f).inReset = true := hr
    obtain ⟨h1, h2⟩ := sdo_abandon (s := (holdReset s).onStartup f) (p := s.cpe.port) rfl
    refine ⟨hu, hin, rfl, by simp [attnN, hin], rfl, rfl, rfl, h1, h2, rfl, rfl, Port.abandon_eq _, ?_, rfl, rfl, rfl, rfl, rfl,
      rfl, rfl, rfl⟩
    show { s.pal with bank := s.pal.stoppedBank, installing := [], applications := [] } = _
    rw [Pal.stoppedBank, Pal.runningWrites_take_one] <;> rfl

/-- The five straps weigh 1, 2, 4, 8 and 16 (R2). -/
theorem strapNumber_val (p : Straps) : (strapNumber p).val =
    (if p.stn0 then 1 else 0) + (if p.stn1 then 2 else 0) + (if p.stn2 then 4 else 0) + (if p.stn3 then 8 else 0)
      + (if p.stn4 then 16 else 0) := by
  obtain ⟨a, b, c, d, e⟩ := p
  revert a b c d e
  decide

theorem endReset_eq (p : Straps) (s : State) :
    endReset p s = (State.afterReset (strapNumber p) s.frame.level s.free s.pending).onCpe
      (fun c => { c with port := match s.cpe.port with | .closed => .closed | _ => .abandoned }) := by
  rw [endReset, Port.abandon_eq]

/-- Settles O5: `endReset` with the number of the straps, or the other reset that stays. -/
theorem resetEndSamplesTheStraps : Obligations.ResetEndSamplesTheStraps := by
  refine fun p s => ⟨⟨strapNumber p, strapNumber_val p, fun h => ?_, fun h => ?_⟩, fun h => ?_, fun h => ?_⟩
  · exact congrArg Host.Outcome.next ((if_neg (by simp [h])).trans (endReset_eq p s))
  · exact congrArg Host.Outcome.next ((if_neg (by simp [h])).trans (endReset_eq p s))
  · exact congrArg Host.Outcome.next (if_pos h)
  · exact congrArg Host.Outcome.next (if_pos h)

/-- A command taken outside a reset, from its owner's answer. -/
theorem exec_answered {f : State → State × Response} {s t : State} {r : Response} (h : canTake s = true) (hf : f s = (t, r)) :
    Host.Outcome.next (takeCommand f s) = (.next (answered r t) : Host.Outcome State Fault Refusal) := by
  rw [takeCommand_taken f s h, hf]

/-! #### The fields of CONFIGURE (R3, R178) -/

/-- A field of two codes, 0 and 1. -/
theorem twoCodes {α : Type} (b : Byte) (x y : α) : (if b = 0 then some x else if b = 1 then some y else none) =
    if b.toNat ≤ 1 then some (if b = 1 then y else x) else none := by
  by_cases h0 : b = 0
  · subst h0; rfl
  · by_cases h1 : b = 1
    · subst h1; rfl
    · rw [if_neg h0, if_neg h1, if_neg (by bv_omega)]

theorem participantOf_eq (b : Byte) : participantOf b = if b.toNat ≤ 1 then some (decide (b = 1)) else none := by
  rw [participantOf, twoCodes]
  split
  · simp
  · rfl

theorem policyOf_eq (b : Byte) : policyOf b = if b.toNat ≤ 1 then some (if b = 1 then .dropLate else .hold) else none :=
  twoCodes b _ _

theorem recoveryOf_eq (b : Byte) :
    recoveryOf b = if b.toNat ≤ 1 then some (if b = 1 then .acknowledged else .automatic) else none := twoCodes b _ _

theorem budgetOf_eq (b : Byte) :
    budgetOf b = if b = 0 ∨ 2 ≤ b.toNat ∧ b.toNat ≤ 16 then some (if b = 0 then 6 else b.toNat) else none := by
  unfold budgetOf
  by_cases h0 : b = 0
  · rw [if_pos h0, if_pos (.inl h0), if_pos h0]
  · simp only [h0, false_or, if_false]

/-- Every field of a CONFIGURE command is in its range (R3). -/
def ConfigInRange (p a d h o r : Byte) : Prop :=
  p.toNat ≤ 1 ∧ a.toNat ≤ 1 ∧ (1 ≤ d.toNat ∧ d.toNat ≤ 60) ∧ (h = 0 ∨ 2 ≤ h.toNat ∧ h.toNat ≤ 16) ∧ o.toNat < 16 ∧ r.toNat ≤ 1

/-- The record that fields in range spell. -/
def configRecordOf (p a d h o r : Byte) : ConfigRecord :=
  { participant := decide (p = 1), policy := if a = 1 then .dropLate else .hold, deadline := d.toNat
    holdBudget := if h = 0 then 6 else h.toNat, openStreams := o.setWidth 4
    recovery := if r = 1 then .acknowledged else .automatic }

theorem configOf_inRange {p a d h o r : Byte} (hr : ConfigInRange p a d h o r) :
    configOf p a d h o r = some (configRecordOf p a d h o r) := by
  obtain ⟨hp, ha, hd, hb, ho, hr⟩ := hr
  simp only [configOf, participantOf_eq, policyOf_eq, deadlineOf, budgetOf_eq, streamsOf, recoveryOf_eq, if_pos hp, if_pos ha,
    if_pos hd, if_pos hb, if_pos ho, if_pos hr]
  rfl

theorem configOf_outOfRange {p a d h o r : Byte} (hr : ¬ ConfigInRange p a d h o r) : configOf p a d h o r = none := by
  simp only [configOf, participantOf_eq, policyOf_eq, deadlineOf, budgetOf_eq, streamsOf, recoveryOf_eq]
  by_contra hn
  obtain ⟨c, hc⟩ := Option.ne_none_iff_exists'.1 hn
  simp only [Option.bind_eq_bind, Option.bind_eq_some_iff, Option.ite_none_right_eq_some] at hc
  obtain ⟨_, ⟨hp, _⟩, _, ⟨ha, _⟩, _, ⟨hd, _⟩, _, ⟨hb, _⟩, _, ⟨ho, _⟩, _, ⟨hr', _⟩, _⟩ := hc
  exact hr ⟨hp, ha, hd, hb, ho, hr'⟩

/-- Settles O11: the life-cycle state, then the six fields, decide. -/
theorem configureWritesTheRecord : Obligations.ConfigureWritesTheRecord := by
  intro p a d h o r s hs
  refine ⟨fun hl => ?_, fun hl hr => ?_, fun hl hr => ?_⟩
  · exact exec_answered hs (if_pos hl)
  · have hc := configOf_outOfRange hr
    exact exec_answered hs (by simp only [configureCommand, hl, hc, ne_eq, not_true, if_false])
  · have hc := configOf_inRange hr
    exact exec_answered hs (by simp only [configureCommand, hl, hc, ne_eq, not_true, if_false]; rfl)

/-- Whether the COMMIT packet stands with the LIF (R88). -/
theorem commitGranted_iff (s : State) : commitGranted s = true ↔ s.lif.driver.tx.map Tx.cls = some .commit := by
  unfold commitGranted
  cases s.lif.driver.tx <;> simp

/-- Settles O12: GO by the one state it is taken in, LEAVE by the six states. -/
theorem goAndLeaveTakeEffectByState : Obligations.GoAndLeaveTakeEffectByState := by
  refine ⟨fun s hs => ⟨fun hl => ?_, fun hl => ?_⟩, fun s hs => ⟨fun hl => ?_, fun hl => ?_, fun hm hj => ?_⟩⟩
  · exact exec_answered hs (if_pos hl)
  · exact exec_answered hs (if_neg (not_not.2 hl))
  · refine exec_answered hs ?_
    simp only [leaveCommand, hl, commitGranted_iff]
    rfl
  · refine exec_answered hs ?_
    simp only [leaveCommand, hl]
    rfl
  · refine exec_answered hs ?_
    cases hl : s.startup.life with
    | member => exact absurd hl hm
    | joinPending => exact absurd hl hj
    | unconfigured => simp only [leaveCommand, hl]
    | standby => simp only [leaveCommand, hl]
    | leaving => simp only [leaveCommand, hl]
    | halted => simp only [leaveCommand, hl]

/-- Settles O13: `stationReset`, with the bank as the entry being written leaves it. -/
theorem restartResetsTheStation : Obligations.RestartResetsTheStation := by
  refine fun s hs => ⟨fun hl => exec_answered hs (if_pos hl), fun hl => ?_⟩
  refine (exec_answered hs (if_neg hl)).trans ?_
  rw [answered_eq, stationReset, Pal.stoppedBank, Pal.runningWrites_take_one]
  rfl

end Sys2Proof.Machine
end

section
/-! PROOF. A leave completed, what hearing a packet changes, and the own number heard: O27, O33 and O34. -/

namespace Sys2Proof.Machine

/-! ### What a broken answer leaves of the PAL (R121) -/

/-- R115, R121: the request ended, in RECEIVING with the installation and its store. -/
theorem Pal.endRequest_eq (p : Pal) (h : p.state ≠ .normal) : p.endRequest = { p with
    outstanding := false, wait := none, install := none, state := .resync
    store := if p.state = .receiving then [] else p.store } := by
  cases hs : p.state with
  | normal => exact absurd hs h
  | resync => simp [Pal.endRequest, hs]
  | receiving => simp [Pal.endRequest, hs]

/-- A packet that breaks an awaited answer ends the request; any other leaves the PAL as it is. -/
theorem Pal.breakAnswer_cases (p : Pal) (own : Station) (k : Packet) :
    p.breakAnswer own k = p ∨ p.breakAnswer own k = p.endRequest := by
  cases hs : p.state with
  | normal => exact .inl (breakAnswer_normal p own k hs)
  | resync =>
    simp only [Pal.breakAnswer, hs]
    split
    · exact .inr rfl
    · exact .inl rfl
  | receiving =>
    simp only [Pal.breakAnswer, hs]
    split
    · exact .inl rfl
    · exact .inr rfl

/-- What leaving the view keeps of the PAL does not depend on an awaited answer. -/
theorem Pal.leave_breakAnswer (p : Pal) (own : Station) (k : Packet) : (p.breakAnswer own k).leave = p.leave := by
  rcases p.breakAnswer_cases own k with h | h
  · rw [h]
  · rw [h]; rfl

theorem Pal.credits_breakAnswer (p : Pal) (own : Station) (k : Packet) : (p.breakAnswer own k).credits = p.credits := by
  rcases p.breakAnswer_cases own k with h | h
  · rw [h]
  · rw [h]; rfl

/-- The units after a leave depend on the ATT, the MSG and what the PAL keeps. -/
theorem unitsLeft_congr {s t : State} (hp : t.pal.leave = s.pal.leave) (ha : t.att = s.att) (hm : t.msg = s.msg) :
    unitsLeft t = unitsLeft s ∧ leaveEvents t = leaveEvents s := by
  have hl : ∀ r : State, unitsLeft r =
      (Agr.reset, r.pal.leave, { r.att with requests := r.att.requests.map requestLeft, returns := [] },
        { Msg.reset with inbound := r.msg.inbound, tagCounter := r.msg.tagCounter }) := fun _ => rfl
  rw [hl, hl, hp, ha, hm]
  exact ⟨rfl, by rw [leaveEvents, leaveEvents, ha, hm]⟩

/-! ### The packet that completes a leave (R8, R71) -/

/-- What the sending of any packet changes first, as one state. -/
theorem sentBy_eq (tx : Tx) (s : State) : sentBy tx s = { s with
    lif := s.lif.sent, pos := s.pos.countSent tx.cls
    pal := if s.inView = true then s.pal.breakAnswer s.number tx.packet else s.pal } := by
  unfold sentBy
  dsimp only
  split <;> rfl

theorem sentBy_unitsLeft (tx : Tx) (s : State) :
    unitsLeft (sentBy tx s) = unitsLeft s ∧ leaveEvents (sentBy tx s) = leaveEvents s := by
  rw [sentBy_eq]
  refine unitsLeft_congr ?_ rfl rfl
  dsimp only
  split
  · exact Pal.leave_breakAnswer _ _ _
  · rfl

/-- PACKET_SENT outside a reset, for the packet that the LIF drives. -/
theorem exec_packetSent {s : State} {tx : Tx} (hr : s.inReset = false) (hd : s.lif.driver = .driving tx) :
    exec .packetSent s = .next (afterSent tx.cls tx.packet (sentBy tx s)) := by
  show execPacketSent s = _
  simp [execPacketSent, hd, Driver.driven, hr, packetSent]

/-- Settles O27: both packets end in `leftWall`, over what the sending of a packet changes. -/
theorem leavesHandoverSentEndsTheMembership : Obligations.LeavesHandoverSentEndsTheMembership := by
  intro s tx hr hd hc
  have hw : afterSent tx.cls tx.packet (sentBy tx s) = leftWall (sentBy tx s) := by
    rcases hc with hc | ⟨hc, hv⟩
    · rw [hc]; rfl
    · rw [hc]
      have hv' : removeFrom (sentBy tx s).number (sentBy tx s).mem.view = 0 := by rw [sentBy_eq]; exact hv
      exact if_pos hv'
  obtain ⟨hu, he⟩ := sentBy_unitsLeft tx s
  rw [exec_packetSent hr hd, hw, leftWall_eq, hu, he, sentBy_eq]
  rfl

/-! ### What hearing itself changes (R16, R26, R34) -/

/-- The LIF after a readable packet. -/
theorem heardBy_lif (k : Packet) (s : State) :
    (heardBy k s).lif = (s.lif.frameEnds (classesOf (.readable k))).noteClasses (classesOf (.readable k)) := by
  unfold heardBy
  dsimp only
  split <;> rfl

/-- The PAL after a readable packet. -/
theorem heardBy_pal (k : Packet) (s : State) :
    (heardBy k s).pal = if s.inView = true then s.pal.breakAnswer s.number k else s.pal := by
  unfold heardBy
  dsimp only
  split <;> rfl

/-- Hearing a readable packet changes the LIF, the silence timer and the PAL. -/
theorem heardBy_eq (k : Packet) (s : State) :
    heardBy k s = { s with lif := (heardBy k s).lif, pos := { s.pos with silence := 0 }, pal := (heardBy k s).pal } := by
  unfold heardBy
  dsimp only
  split <;> rfl

theorem heardBy_unitsLeft (k : Packet) (s : State) :
    unitsLeft (heardBy k s) = unitsLeft s ∧ leaveEvents (heardBy k s) = leaveEvents s := by
  refine unitsLeft_congr ?_ (by rw [heardBy_eq]) (by rw [heardBy_eq])
  rw [heardBy_pal]
  split
  · exact Pal.leave_breakAnswer _ _ _
  · rfl

theorem heardBy_driver (k : Packet) (s : State) : (heardBy k s).lif.driver = s.lif.driver := by
  rw [heardBy_lif, Lif.driver_noteClasses, Lif.driver_frameEnds]

theorem heardBy_credits (k : Packet) (s : State) : (heardBy k s).pal.credits = s.pal.credits := by
  rw [heardBy_pal]
  split
  · exact Pal.credits_breakAnswer _ _ _
  · rfl

/-- R26: the last receive error record after a readable packet. -/
def errorAfter (k : Packet) (l : Lif) : Option Classes :=
  if k.head.corrected = false ∧ flawOf k = none then l.lastError else some (.readable k.head.corrected (flawOf k))

theorem classesOf_readable (k : Packet) : classesOf (.readable k) = .readable k.head.corrected (flawOf k) := rfl

theorem Lif.noteClasses_readable (k : Packet) (l : Lif) :
    l.noteClasses (classesOf (.readable k)) = { l with lastError := errorAfter k l } := by
  rw [classesOf_readable]
  unfold Lif.noteClasses errorAfter
  cases k.head.corrected <;> cases flawOf k <;> rfl

theorem heardAtEnd_readable (k : Packet) :
    heardAtEnd (classesOf (.readable k)) = true ↔ flawOf k = none ∨ flawOf k = some .payloadFailed := by
  rw [classesOf_readable]
  rcases flawOf k with _ | _ | _ | _ <;> simp [heardAtEnd]

/-- The LIF after a readable packet: heard at its end delimiter, or judged in error. -/
theorem heardBy_lif_eq (k : Packet) (s : State) :
    (heardBy k s).lif = if flawOf k = none ∨ flawOf k = some .payloadFailed
      then { s.lif with receiver := .draining, lineBusy := true, released := some 0, lastError := errorAfter k s.lif }
      else { s.lif with receiver := if s.lif.receiver = .armed then .armed else .draining, lastError := errorAfter k s.lif } := by
  rw [heardBy_lif, Lif.noteClasses_readable, Lif.frameEnds]
  by_cases hf : flawOf k = none ∨ flawOf k = some .payloadFailed
  · rw [if_pos hf, if_pos ((heardAtEnd_readable k).2 hf)]; rfl
  · rw [if_neg hf, if_neg (hf ∘ (heardAtEnd_readable k).1)]; rfl

/-- A deaf station: its receiver is off, drains, or the LIF drives (R16, R28). -/
theorem canHear_eq_false {s : State} (h : s.lif.receiver = .off ∨ s.lif.receiver = .draining ∨ s.lif.driver.driven ≠ none) :
    canHear s = false := by
  rw [← Bool.not_eq_true, canHear_iff]
  rintro ⟨_, hf, hd⟩
  rcases h with h | h | h
  · rw [h] at hf; cases hf
  · rw [h] at hf; cases hf
  · cases hx : s.lif.driver with
    | released => exact h (by rw [hx]; rfl)
    | waiting tx => exact h (by rw [hx]; rfl)
    | driving tx => rw [hx] at hd; cases hd

/-- A HALTED station takes notice of a readable packet as `heardBy` says, and no unit acts (R10, R24). -/
theorem hear_halted (k : Packet) (act : State → State) (s : State) (hc : canHear s = true) (hl : s.startup.life = .halted)
    (ht : s.pos.turnaround = none) : hear (.readable k) act s = heardBy k s := by
  have hv : s.inView = false := by rw [State.inView_eq, hl]; rfl
  rw [hear_heard _ _ _ hc, unitsHear_halted _ _ _ (by simpa using hl), ← notePacket_heardBy k s (.inr (by simp [ht]))]
  exact (if_neg (by rw [Bool.not_eq_true]; exact hv)).symm

/-- Settles O33: `heardBy` unit by unit; then the packets without an effect of their own, HALTED, the turnaround window and a deaf
receiver. -/
theorem hearingComesBeforeTheUnits : Obligations.HearingComesBeforeTheUnits := by
  refine ⟨fun k s => ⟨heardBy_eq k s, heardBy_lif_eq k s, ?_⟩, fun h f s ht => ⟨?_, ?_, fun p => ?_, fun r c => ?_⟩,
    fun k s hc hl ht => ?_, fun k e s => ⟨fun hc hp ht => ?_, fun hd => ?_⟩⟩
  · rw [heardBy_pal]
    cases s.inView with
    | false => rfl
    | true =>
      cases hs : s.pal.state with
      | normal => exact breakAnswer_normal _ _ _ hs
      | receiving => simp [Pal.breakAnswer, Pal.endRequest_eq, hs]
      | resync => simp [Pal.breakAnswer, Pal.endRequest_eq, hs]
  · exact congrArg Host.Outcome.next (hear_taken (.claim h f) id s ht)
  · exact congrArg Host.Outcome.next (hear_taken (.leave h f) id s ht)
  · exact congrArg Host.Outcome.next (hear_taken (.join h p f) id s ht)
  · exact congrArg Host.Outcome.next (hear_taken (.ack h r c f) id s ht)
  · rw [exec_row, hear_halted k _ s hc hl ht]
  · have hw := fun hd act => hear_inWindow hd act s hc hp (Option.isSome_iff_ne_none.2 ht)
    rw [exec_row, exec_row]
    exact ⟨congrArg Host.Outcome.next (hw _ _), congrArg Host.Outcome.next (hw _ _)⟩
  · have hx := canHear_eq_false hd
    rw [exec_row]
    exact ⟨congrArg Host.Outcome.next (hear_deaf _ _ s hx), congrArg Host.Outcome.next (hear_deaf _ _ s hx)⟩

/-! ### The own number heard (R10, R56) -/

/-- A packet with the station's own number halts it, over what taking notice of the packet changes. -/
theorem hear_own (k : Packet) (act : State → State) (s : State) (hc : canHear s = true) (hl : s.startup.life ≠ .halted)
    (hk : k.head.source = s.number) : hear (.readable k) act s =
      halt (notePacket (classesOf (.readable k)) (s.onLif (fun l => l.frameEnds (classesOf (.readable k))))) := by
  rw [hear_heard _ _ _ hc, unitsHear_readable _ _ _ (by simpa using hl)]
  exact if_pos hk

theorem Pos.fault_endHandover (p : Pos) : p.endHandover.fault = p.fault := by
  unfold Pos.endHandover; split <;> rfl

/-- A POS that falls QUIET keeps its fault record, whatever notice it took of a packet (R56). -/
theorem notePacket_quiet (c : Classes) (s : State) : (notePacket c s).pos.quiet = { Pos.reset with fault := s.pos.fault } := by
  show ({ Pos.reset with fault := s.pos.endHandover.fault } : Pos) = _
  rw [Pos.fault_endHandover]

/-- Settles O34: `halt` over the notice taken of the packet, whose LIF is that of `heardBy`. -/
theorem ownNumberHeardHalts : Obligations.OwnNumberHeardHalts := by
  intro k s hc hl hk
  refine ⟨_, by rw [exec_row, hear_own k _ s hc hl hk], ?_⟩
  have hw : (notePacket (classesOf (.readable k)) (s.onLif (fun l => l.frameEnds (classesOf (.readable k))))).lif.withdraw =
      { (heardBy k s).lif with driver := match s.lif.driver with
        | .waiting _ => .released
        | d => d } := by
    show (((s.lif.frameEnds (classesOf (.readable k))).noteClasses (classesOf (.readable k))).withdraw) = _
    rw [← heardBy_lif, Lif.withdraw, heardBy_driver] <;> rfl
  rw [halt_eq, hw, notePacket_quiet]
  rfl

end Sys2Proof.Machine
end

section
/-! PROOF. An unreadable packet: O25. -/

namespace Sys2Proof.Machine

/-! ### An unreadable packet (R25, R26, R121) -/

/-- R25: the credit records after an unreadable packet. -/
theorem creditOf_zeroOthers (own n : Station) (t : Table Nat) :
    creditOf (zeroOthers own t) n = if n = own then creditOf t n else 0 := by
  rw [creditOf, zeroOthers, Table.get?_mapAll, creditOf]
  by_cases h : n = own
  · subst h
    cases Table.get? t n.val <;> simp
  · have hv : ¬ n.val = own.val := fun e => h (Fin.ext e)
    cases Table.get? t n.val <;> simp [h, hv]

/-- A readable or unreadable packet taken notice of outside a turnaround window. -/
theorem notePacket_eq (c : Classes) (s : State) (ht : s.pos.turnaround = none) :
    notePacket c s = { s with lif := s.lif.noteClasses c, pos := { s.pos with silence := 0 } } := by
  have he := endHandover_other s.pos (.inr (by rw [ht]; rfl))
  simp only [notePacket, State.onLif, State.onPos, he]

/-- Outside a slot and a turnaround window an unreadable packet is the credits' and the installation's alone. -/
theorem unitsHear_unreadable_alone (u : Unreadable) (act : State → State) (s : State) (hs : s.pos.slot = none)
    (ht : s.pos.turnaround = none) : unitsHear (.unreadable u) act s =
      let t := { s with lif := { s.lif with lastError := some (.unreadable u) }, pos := { s.pos with silence := 0 } }
      if s.inView = true then (zeroCredits t).onPal Pal.breakUnreadable else t := by
  have hn := notePacket_eq (.unreadable u) s ht
  have alone : ∀ t : State, t.pos.slot = none → unreadableInSlot t = t := fun t h => by rw [unreadableInSlot, h]
  by_cases hl : s.startup.life = .halted
  · have hv : s.inView = false := by rw [State.inView_eq, hl]; rfl
    rw [unitsHear_halted _ _ _ hl, hv]
    exact hn
  · rw [unitsHear_unreadable _ _ _ hl, hn, hearUnreadable, alone]
    · rfl
    · split <;> exact hs

/-- The two rows by which a station hears an unreadable packet, each with the LIF it leaves to the units (R14 to R16). -/
theorem exec_unreadable (u : Unreadable) (s : State) (hc : canHear s = true) :
    exec (.unreadablePacketHeard u) s = .next (unitsHear (.unreadable u) id
      (s.onLif (fun l => { l with receiver := if l.receiver = .armed then .armed else .draining }))) ∧
    exec (.receiverRearm (some (.unreadable u))) s = .next (unitsHear (.unreadable u) id (s.onLif Lif.rearm)) := by
  obtain ⟨hr, hf, hd⟩ := (canHear_iff s).1 hc
  have hon := Receiver.on_of_follows hf
  refine ⟨congrArg Host.Outcome.next (hear_heard _ _ s hc), ?_⟩
  show execReceiverRearm _ s = _
  simp [execReceiverRearm, canRearm, hr, hd, hon, rearm, hc, actOnHeard]

/-- What the units make of an unreadable packet over a state that differs from `s` in its LIF: the statement's two cases. -/
theorem unreadable_outcome (u : Unreadable) (s : State) (l : Lif) (hs : s.pos.slot = none) (ht : s.pos.turnaround = none) :
    let x := unitsHear (.unreadable u) id { s with lif := l }
    let lif := { l with lastError := some (.unreadable u) }
    (s.inView = false → x = { s with lif := lif, pos := { s.pos with silence := 0 } }) ∧
    (s.inView = true →
      x = { s with
        lif := lif
        pos := { s.pos with silence := 0 }
        pal := { (if s.pal.state = .receiving then { s.pal with state := .resync, store := [], outstanding := false,
                                                                wait := none, install := none } else s.pal)
                 with credits := x.pal.credits }
        msg := { s.msg with credits := x.msg.credits } } ∧
      x.pal.credits = zeroOthers s.number s.pal.credits ∧ x.msg.credits = zeroOthers s.number s.msg.credits) := by
  have hx := unitsHear_unreadable_alone u id { s with lif := l } hs ht
  have hi : ({ s with lif := l } : State).inView = s.inView := rfl
  rw [hi] at hx
  refine ⟨fun hv => ?_, fun hv => ?_⟩
  · rw [hx, hv]; rfl
  · rw [hv] at hx
    dsimp only
    rw [hx]
    by_cases hp : s.pal.state = .receiving
    · simp only [if_true, hp, zeroCredits, State.onPal, State.onMsg, Pal.breakUnreadable, Pal.endRequest]
      exact ⟨trivial, rfl, rfl⟩
    · simp only [if_true, hp, if_false, zeroCredits, State.onPal, State.onMsg, Pal.breakUnreadable]
      exact ⟨trivial, rfl, rfl⟩

/-- Settles O25: both rows hand the packet to the same units over the LIF of each. -/
theorem unreadablePacketZeroesTheCredits : Obligations.UnreadablePacketZeroesTheCredits := by
  intro u s hc hs ht c lif hcl
  obtain ⟨h1, h2⟩ := exec_unreadable u s hc
  obtain ⟨l, hl, hx⟩ : ∃ l : Lif, lif = { l with lastError := some (.unreadable u) } ∧
      exec c s = .next (unitsHear (.unreadable u) id { s with lif := l }) := by
    rcases hcl with ⟨rfl, rfl⟩ | ⟨rfl, rfl⟩
    · exact ⟨_, rfl, h1⟩
    · exact ⟨_, rfl, h2⟩
  obtain ⟨out, inn⟩ := unreadable_outcome u s l hs ht
  rw [hx, hl]
  refine ⟨fun hv => by rw [out hv], fun hv => ⟨_, rfl, ?_⟩⟩
  obtain ⟨he, hp, hm⟩ := inn hv
  refine ⟨he, fun n hn => ?_, ?_, ?_⟩
  · rw [hp, hm, creditOf_zeroOthers, creditOf_zeroOthers, if_neg hn, if_neg hn]; exact ⟨rfl, rfl⟩
  · rw [hp, creditOf_zeroOthers, if_pos rfl]
  · rw [hm, creditOf_zeroOthers, if_pos rfl]

end Sys2Proof.Machine
end

section
/-! PROOF. What a HANDOVER packet does to the membership: O35. -/

namespace Sys2Proof.Machine

/-! ### Members that come (R62, R79, R106, R142) -/

/-- The table with the same entry at each station of a list. -/
def Table.setEach {α : Type} (t : Table α) (ns : List Station) (a : α) : Table α :=
  ns.foldl (fun t n => Table.set t n.val a) t

theorem Table.get?_setEach {α : Type} (t : Table α) (ns : List Station) (a : α) (n : Station) :
    Table.get? (t.setEach ns a) n.val = if n ∈ ns then some a else Table.get? t n.val := by
  induction ns generalizing t with
  | nil => rfl
  | cons m ns ih =>
    have hs : t.setEach (m :: ns) a = (Table.set t m.val a).setEach ns a := rfl
    rw [hs, ih, Table.get?_set]
    by_cases hn : n ∈ ns
    · simp [hn]
    · by_cases hm : n = m
      · simp [hm]
      · simp [hn, hm, show ¬ m.val = n.val from fun e => hm (Fin.ext e.symm)]

/-- Members added: each gets its entry and its two credit records, and no other unit changes. -/
theorem memberCame_foldl_eq (p : Option Bool) (ns : List Station) (s : State) : ns.foldl (memberCame p) s = { s with
    agr := { s.agr with table := s.agr.table.setEach ns (unheard p) }
    pal := { s.pal with credits := s.pal.credits.setEach ns 0 }
    msg := { s.msg with credits := s.msg.credits.setEach ns 0 } } := by
  induction ns generalizing s with
  | nil => rfl
  | cons n ns ih => rw [List.foldl_cons, ih]; rfl

/-! ### A view adopted (R61, R62, R74) -/

/-- The membership events of a view adopted, ascending (R74). -/
def viewEvents (s : State) (v : StationSet) : List EventRecord :=
  (members (without s.mem.view v)).map (removedEvent none) ++ (members (without v s.mem.view)).map addedEvent

/-- A view adopted: what the lost members had is gone, and what the new ones get is there. -/
theorem adopt_eq (v : StationSet) (s : State) : ∃ (es : List EventRecord) (n : Nat),
    let gone := without s.mem.view v
    let came := members (without v s.mem.view)
    let rest := unitsWithout gone s
    adopt v s = { s with
      mem := { s.mem with view := v }
      agr := { rest.1 with table := rest.1.table.setEach came (unheard none) }
      pal := { rest.2.1 with credits := rest.2.1.credits.setEach came 0 }
      att := rest.2.2.1
      msg := { rest.2.2.2 with credits := rest.2.2.2.credits.setEach came 0 }
      cpe := { s.cpe with events := (viewEvents s v ++ es).foldl pushEvent s.cpe.events }
      free := n } ∧
    IsMerge (requestsLost gone s.att) (messagesLost gone s.msg) es := by
  obtain ⟨es, n, he, hm⟩ := membersGone_eq (without s.mem.view v) ((s.setView v).raiseAll (viewEvents s v))
  refine ⟨es, n, ?_, ?_⟩
  · show (members (without v s.mem.view)).foldl (memberCame none)
      (membersGone (without s.mem.view v) ((s.setView v).raiseAll (viewEvents s v))) = _
    rw [he, memberCame_foldl_eq, State.raiseAll_eq, List.foldl_append]
    rfl
  · rw [State.raiseAll_eq] at hm
    exact hm

/-- The credit records that lost members leave behind. -/
theorem credits_palWithout (gone : StationSet) (p : Pal) : (palWithout gone p).credits = Table.dropSet p.credits gone := by
  unfold palWithout
  dsimp only
  split <;> rfl

/-- A table with one entry for each member of a view, after some members are lost and others added. -/
theorem Table.get?_newView {α : Type} (t : Table α) (old v : StationSet) (a : α) (n : Station) :
    Table.get? ((Table.dropSet t (without old v)).setEach (members (without v old)) a) n.val =
      if inSet n v = true then (if inSet n old = true then Table.get? t n.val else some a)
      else if inSet n old = true then none else Table.get? t n.val := by
  have hg : (without old v).getLsbD n.val = (inSet n old && !inSet n v) := inSet_without n old v
  rw [Table.get?_setEach, Table.get?_dropSet, hg]
  simp only [mem_members, inSet_without]
  cases inSet n v <;> cases inSet n old <;> simp

theorem Table.isSome_newView {α : Type} (t : Table α) (old v : StationSet) (a : α) (n : Station)
    (h : (Table.get? t n.val).isSome = inSet n old) :
    (Table.get? ((Table.dropSet t (without old v)).setEach (members (without v old)) a) n.val).isSome = inSet n v := by
  rw [Table.get?_newView]
  cases hv : inSet n v <;> cases ho : inSet n old <;> simp_all

/-- Each member of the view, and no other station, has its entry and its two credit records. -/
theorem recordsMatchView_iff (s : State) : recordsMatchView s = true ↔ ∀ n : Station,
    (Table.get? s.agr.table n.val).isSome = inSet n s.mem.view ∧ (Table.get? s.pal.credits n.val).isSome = inSet n s.mem.view ∧
      (Table.get? s.msg.credits n.val).isSome = inSet n s.mem.view := by
  simp [recordsMatchView, stations, Agr.entry, and_assoc]

/-! ### The HANDOVER packet that begins no possession -/

/-- R61, R63, R68: the membership that a HANDOVER packet changes keeps the station's number. -/
theorem handoverMembership_number (h : Head) (v : StationSet) (s : State) : (handoverMembership h v s).number = s.number := by
  unfold handoverMembership
  split
  · split <;> rfl
  · split
    · exact (adopt_core v s).number
    · rw [dropped_eq]; rfl
  · split
    · exact (adopt_core v s).number
    · rw [leftWall_eq]; rfl
  · rfl
  · rfl
  · rfl

/-- A view that contains the station changes nothing of its POS. -/
theorem handoverMembership_pos (h : Head) (v : StationSet) (s : State) (hv : inSet s.number v = true) :
    (handoverMembership h v s).pos = s.pos := by
  unfold handoverMembership
  simp only [hv, if_true]
  split
  · rfl
  · exact (adopt_core v s).pos
  · exact (adopt_core v s).pos
  · rfl
  · rfl
  · rfl

/-- A station that is not named, does not listen, or is excluded takes the view and begins no possession. -/
theorem onHandover_unnamed (h : Head) (v : StationSet) (s : State)
    (hn : ¬ (h.dest = .station s.number ∧ s.pos.state = .listening ∧ inSet s.number v = true)) :
    onHandover h v s = handoverMembership h v s := by
  refine if_neg fun hc => hn ?_
  simp only [Bool.and_eq_true, beq_iff_eq, addressed, handoverMembership_number] at hc
  obtain ⟨⟨⟨_, hp⟩, hd⟩, hv⟩ := hc
  exact ⟨hd, by rw [← handoverMembership_pos h v s hv]; exact hp, hv⟩

/-- The HANDOVER packet heard by such a station. -/
theorem exec_handover_unnamed (h : Head) (a : Attempt) (v : StationSet) (f : Option Flaw) (s : State)
    (ht : takesPacket h s = true)
    (hn : ¬ (h.dest = .station s.number ∧ s.pos.state = .listening ∧ inSet s.number v = true)) :
    exec (.handoverHeard h a v f) s = .next (handoverMembership h v (heardBy (.handover h a v f) s)) := by
  have hx := hear_taken (.handover h a v f) (onHandover h v) s ht
  have hu := heardBy_eq (.handover h a v f) s
  rw [onHandover_unnamed _ _ _ (by rw [hu]; exact hn)] at hx
  exact congrArg Host.Outcome.next hx

/-- A view that contains the station, adopted by a member: every record matches it, those of members that stay as they were. -/
theorem handover_adopts (v : StationSet) (s u : State) (hrec : recordsMatchView s = true) (hmem : u.mem = s.mem)
    (hagr : u.agr = s.agr) (hcr : u.pal.credits = s.pal.credits) (hmsg : u.msg = s.msg) :
    recordsMatchView (adopt v u) = true ∧
    (∀ n, inSet n s.mem.view = true → inSet n v = true → (adopt v u).agr.entry n = s.agr.entry n ∧
      creditOf (adopt v u).pal.credits n = creditOf s.pal.credits n ∧
      creditOf (adopt v u).msg.credits n = creditOf s.msg.credits n) ∧
    ∀ n, inSet n (without v s.mem.view) = true → (adopt v u).agr.entry n = some { participant := none, report := none } ∧
      creditOf (adopt v u).pal.credits n = 0 ∧ creditOf (adopt v u).msg.credits n = 0 := by
  obtain ⟨es, m, he, _⟩ := adopt_eq v u
  dsimp only at he
  have hview : (adopt v u).mem.view = v := by rw [he]
  have hagr' : (adopt v u).agr.table =
      (Table.dropSet s.agr.table (without s.mem.view v)).setEach (members (without v s.mem.view)) (unheard none) := by
    rw [he, ← hagr, ← hmem]; rfl
  have hpal' : (adopt v u).pal.credits =
      (Table.dropSet s.pal.credits (without s.mem.view v)).setEach (members (without v s.mem.view)) 0 := by
    rw [he, ← hcr, ← hmem, ← credits_palWithout]; rfl
  have hmsg' : (adopt v u).msg.credits =
      (Table.dropSet s.msg.credits (without s.mem.view v)).setEach (members (without v s.mem.view)) 0 := by
    rw [he, ← hmsg, ← hmem]; rfl
  refine ⟨(recordsMatchView_iff _).2 fun n => ?_, fun n ho hv => ?_, fun n hn => ?_⟩
  · obtain ⟨h1, h2, h3⟩ := (recordsMatchView_iff s).1 hrec n
    rw [hview, hagr', hpal', hmsg']
    exact ⟨Table.isSome_newView _ _ _ _ n h1, Table.isSome_newView _ _ _ _ n h2, Table.isSome_newView _ _ _ _ n h3⟩
  · simp only [Agr.entry, creditOf, hagr', hpal', hmsg', Table.get?_newView, if_pos hv, if_pos ho]
    exact ⟨trivial, trivial, trivial⟩
  · rw [inSet_without, Bool.and_eq_true, Bool.not_eq_true'] at hn
    obtain ⟨hv, ho⟩ := hn
    simp only [Agr.entry, creditOf, hagr', hpal', hmsg', Table.get?_newView, hv, ho]
    exact ⟨rfl, rfl, rfl⟩

/-- R61, R62: a station of the view takes the view that contains it. -/
theorem handoverMembership_adopts (h : Head) {v : StationSet} {s : State} (hi : s.inView = true) (hv : inSet s.number v = true) :
    handoverMembership h v s = adopt v s := by
  rw [State.inView_eq] at hi
  cases hl : s.startup.life with
  | member => simp only [handoverMembership, hl, hv, if_true]
  | leaving => simp only [handoverMembership, hl, hv, if_true]
  | unconfigured => rw [hl] at hi; cases hi
  | standby => rw [hl] at hi; cases hi
  | joinPending => rw [hl] at hi; cases hi
  | halted => rw [hl] at hi; cases hi

/-- R9, R63: a MEMBER that the view excludes is dropped. -/
theorem handoverMembership_drops (h : Head) {v : StationSet} {s : State} (hl : s.startup.life = .member)
    (hv : inSet s.number v = false) : handoverMembership h v s = dropped h.source s := by
  simp only [handoverMembership, hl, hv, Bool.false_eq_true, if_false]

/-- R8, R63: a LEAVING station that the view excludes has left. -/
theorem handoverMembership_leaves (h : Head) {v : StationSet} {s : State} (hl : s.startup.life = .leaving)
    (hv : inSet s.number v = false) : handoverMembership h v s = leftWall s := by
  simp only [handoverMembership, hl, hv, Bool.false_eq_true, if_false]

/-- R68: a pending station enters a view that contains it. -/
theorem handoverMembership_enters (h : Head) {v : StationSet} {s : State} (hl : s.startup.life = .joinPending)
    (hv : inSet s.number v = true) :
    handoverMembership h v s = enterView false v { kind := .joined, station := some h.source } s := by
  simp only [handoverMembership, hl, hv, if_true]

/-- R68: a pending station stays one where the view excludes it. -/
theorem handoverMembership_waits (h : Head) {v : StationSet} {s : State} (hl : s.startup.life = .joinPending)
    (hv : inSet s.number v = false) : handoverMembership h v s = s := by
  simp only [handoverMembership, hl, hv, Bool.false_eq_true, if_false]

/-- Settles O35: the membership by life-cycle state and carried view, over what hearing the packet changes. -/
theorem handoverChangesTheMembership : Obligations.HandoverChangesTheMembership := by
  intro h a v f s ht hn hrec u raised ask
  have hask : ask = .next (handoverMembership h v u) := exec_handover_unnamed h a v f s ht hn
  have hunits : unitsLeft u = unitsLeft s ∧ leaveEvents u = leaveEvents s := heardBy_unitsLeft _ s
  have hpal : u.pal = if s.inView = true then s.pal.breakAnswer s.number (.handover h a v f) else s.pal := heardBy_pal _ s
  have hdriver : u.lif.driver = s.lif.driver := heardBy_driver _ s
  have hcredits : u.pal.credits = s.pal.credits := heardBy_credits _ s
  obtain ⟨lif, pal, hu⟩ : ∃ lif pal, u = { s with lif := lif, pos := { s.pos with silence := 0 }, pal := pal } :=
    ⟨_, _, heardBy_eq _ s⟩
  have hlife : u.startup.life = s.startup.life := by rw [hu]
  have hnumber : u.number = s.number := by rw [hu]; rfl
  have hview : u.inView = s.inView := by rw [hu]; rfl
  have hmatch := handover_adopts v s u hrec (by rw [hu]) (by rw [hu]) hcredits (by rw [hu])
  have heq := adopt_eq v u
  clear_value u ask
  refine ⟨fun hi hv => ?_, fun hl hv => ?_, fun hl hv c hc => ?_, fun life state kind hk hv => ?_⟩
  · have hx := handoverMembership_adopts h (hview.trans hi) (hnumber ▸ hv)
    subst hu
    obtain ⟨es, n, he, hm⟩ := heq
    exact ⟨_, es, hask.trans (congrArg _ hx), by rw [he]; rfl, hm, hmatch⟩
  · rw [hask, handoverMembership_waits h (hlife.trans hl) (hnumber ▸ hv)]
  · rw [hask, handoverMembership_enters h (hlife.trans hl) (hnumber ▸ hv)]
    have hi : s.inView = false := by rw [State.inView_eq, hl]; rfl
    rw [hi] at hpal
    subst hu hpal
    have hg : s.cfg = c := by simp [State.cfg, hc]
    subst hg
    rfl
  · obtain ⟨hunits, hevents⟩ := hunits
    rcases hk with ⟨hl, rfl, rfl, rfl⟩ | ⟨hl, rfl, rfl, rfl⟩
    · rw [hask, handoverMembership_drops h (hlife.trans hl) (hnumber ▸ hv), dropped_eq, hunits, hevents, ← hdriver]
      subst hu
      rfl
    · rw [hask, handoverMembership_leaves h (hlife.trans hl) (hnumber ▸ hv), leftWall_eq, hunits, hevents]
      subst hu
      rfl

end Sys2Proof.Machine
end

section
/-! PROOF. Activity, the rearm, the beginning of driving, and contention: O24 and O32. -/

namespace Sys2Proof.Machine

/-! ### Activity (R17, R34, R42, R46) -/

/-- Activity while the turnaround window runs ends the possession, its slot and its window with it (R46). -/
theorem Pos.activity_inWindow {p : Pos} (h : p.state = .handingOver ∧ p.turnaround ≠ none) : p.activity =
    { p with state := .listening, silence := 0, batch := Batch.idle, slot := none, handover := none, turnaround := none } := by
  have he : p.endHandover = { p.discard with state := .listening } := if_pos ⟨h.1, Option.isSome_iff_ne_none.2 h.2⟩
  rw [Pos.activity, he]
  rfl

/-- Elsewhere activity zeroes the silence timer and is noted in an open slot (R34, R42). -/
theorem Pos.activity_outsideWindow {p : Pos} (h : ¬ (p.state = .handingOver ∧ p.turnaround ≠ none)) : p.activity =
    { p with silence := 0, slot := p.slot.map (fun sl => { sl with activity := true }) } := by
  have he : p.endHandover = p := if_neg fun hc => h ⟨hc.1, Option.isSome_iff_ne_none.1 hc.2⟩
  rw [Pos.activity, he]

theorem reportActivity_eq (s : State) :
    reportActivity s = { s with lif := s.lif.departs, pos := s.pos.activity } := rfl

/-- The departure is seen by an ARMED receiver alone (R16). -/
theorem exec_activity (s : State) :
    (s.inReset = false → s.lif.receiver = .armed → exec .activity s = .next (reportActivity s)) ∧
    (s.lif.receiver ≠ .armed → exec .activity s = .next s) := by
  refine ⟨fun hr ha => ?_, fun ha => ?_⟩
  · show execActivity s = _
    simp [execActivity, hr, ha]
  · show execActivity s = _
    simp [execActivity, ha]

/-! ### The rearm (R14 to R16) -/

/-- A station that can hear a packet can rearm. -/
theorem canRearm_of_canHear {s : State} (h : canHear s = true) : canRearm s = true := by
  obtain ⟨hr, hf, hd⟩ := (canHear_iff s).1 h
  simp [canRearm, hr, hd, Receiver.on_of_follows hf]

/-- A rearm with no packet judged, and one in DRAINING, hears nothing (log 2, log 12). -/
theorem exec_rearm_unheard {s : State} (hc : canRearm s = true) {j : Option Heard} (hj : j = none ∨ s.lif.receiver = .draining) :
    exec (.receiverRearm j) s = .next (s.onLif Lif.rearm) := by
  have hx : exec (.receiverRearm j) s = .next (rearm j s) := by
    show execReceiverRearm j s = _
    rw [execReceiverRearm, if_pos hc]
  rw [hx]
  cases j with
  | none => rfl
  | some hd =>
    rcases hj with hj | hj
    · cases hj
    · rw [rearm, canHear_eq_false (.inr (.inl hj))]; rfl

/-- A rearmed receiver stays ARMED after a packet judged in error (R16). -/
theorem Lif.frameEnds_rearm (l : Lif) {c : Classes} (h : heardAtEnd c = false) : l.rearm.frameEnds c = l.rearm := by
  rw [Lif.frameEnds, h]; rfl

/-- A readable packet judged in error and heard at the rearm is its own row with the receiver ARMED (R15, R19 to R21). -/
theorem exec_rearm_readable {s : State} (hc : canHear s = true) {k : Packet} (hk : heardAtEnd (classesOf (.readable k)) = false) :
    exec (.receiverRearm (some (.readable k))) s = exec k.row (s.onLif Lif.rearm) := by
  obtain ⟨hr, _, hd⟩ := (canHear_iff s).1 hc
  have hc' : canHear (s.onLif Lif.rearm) = true := (canHear_iff _).2 ⟨hr, rfl, hd⟩
  rw [exec_row, hear_heard _ _ _ hc']
  have hl : (s.onLif Lif.rearm).onLif (fun l => l.frameEnds (classesOf (.readable k))) = s.onLif Lif.rearm := by
    simp only [State.onLif, Lif.frameEnds_rearm _ hk]
  rw [hl]
  show execReceiverRearm _ s = _
  rw [execReceiverRearm, if_pos (canRearm_of_canHear hc), rearm]
  simp only [hc, if_true]
  rfl

/-! ### The beginning of driving (R28) -/

/-- The packet handed to the LIF is driven; an ARMED receiver sees its departure as activity (log 11, log 26). -/
theorem beginDriving_eq (tx : Tx) (s : State) (ht : s.pos.turnaround = none) : beginDriving tx s = { s with
    lif := { s.lif with
      driver := .driving tx
      released := none
      lineBusy := if s.lif.receiver = .armed then true else s.lif.lineBusy
      receiver := if s.lif.receiver = .off then .off else .delimiter }
    pos := if s.lif.receiver = .armed
      then { s.pos with silence := 0, slot := s.pos.slot.map (fun sl => { sl with activity := true }) } else s.pos } := by
  by_cases ha : s.lif.receiver = .armed
  · have hp := Pos.activity_outsideWindow (p := s.pos) (fun h => h.2 ht)
    simp only [beginDriving, ha, if_true, reportActivity_eq, hp]
    rfl
  · simp only [beginDriving, ha, if_false]
    rfl

theorem exec_lifBeginDriving (s : State) (hr : s.inReset = false) :
    (∀ tx, s.lif.driver = .waiting tx → exec .lifBeginDriving s = .next (beginDriving tx s)) ∧
    ((∀ tx, s.lif.driver ≠ .waiting tx) → exec .lifBeginDriving s = .next s) := by
  have hx : exec .lifBeginDriving s = execLifBeginDriving s := rfl
  refine ⟨fun tx hd => ?_, fun hd => ?_⟩
  · simp [hx, execLifBeginDriving, hd, hr]
  · cases hs : s.lif.driver with
    | waiting tx => exact absurd hs (hd tx)
    | released => simp [hx, execLifBeginDriving, hs]
    | driving tx => simp [hx, execLifBeginDriving, hs]

/-- Settles O24: the three rows, each by the state of the receiver or of the driver. -/
theorem activityRearmAndDriving : Obligations.ActivityRearmAndDriving := by
  refine ⟨fun s => ⟨fun hr ha => ?_, (exec_activity s).2, fun hc j hj => exec_rearm_unheard hc hj, fun hc k hk => ?_,
    fun hc j => ?_⟩, fun s hr => ⟨fun tx hd ht => ?_, (exec_lifBeginDriving s hr).2⟩⟩
  · rw [(exec_activity s).1 hr ha, reportActivity_eq]
    by_cases hw : s.pos.state = .handingOver ∧ s.pos.turnaround ≠ none
    · rw [Pos.activity_inWindow hw, if_pos hw]; rfl
    · rw [Pos.activity_outsideWindow hw, if_neg hw]; rfl
  · refine exec_rearm_readable hc ?_
    rw [classesOf_readable]
    rcases hk with hk | hk
    · rw [hk]; rfl
    · rw [hk]; rfl
  · show execReceiverRearm j s = _
    rw [execReceiverRearm, hc]; rfl
  · rw [(exec_lifBeginDriving s hr).1 tx hd, beginDriving_eq tx s ht]

/-! ### The comparator (R30) -/

/-- The level sensed in a half-cell, RELEASED past the end of the list (log 12). -/
theorem compareLevels_cons (d : Level) (ds sensed : List Level) : compareLevels (d :: ds) sensed =
    if d = (sensed[0]?).getD .released then compareLevels ds sensed.tail else driveFault d := by
  cases sensed <;> rfl

/-- The comparator finds the kind of the level driven in the first half-cell that differs. -/
theorem compareLevels_first {driven sensed : List Level} {i : Nat} {d : Level} (hi : driven[i]? = some d)
    (hd : d ≠ (sensed[i]?).getD .released) (hb : ∀ j, j < i → driven[j]? = some ((sensed[j]?).getD .released)) :
    compareLevels driven sensed = driveFault d := by
  induction driven generalizing sensed i with
  | nil => cases hi
  | cons x xs ih =>
    rw [compareLevels_cons]
    cases i with
    | zero =>
      obtain rfl : x = d := by simpa using hi
      rw [if_neg hd]
    | succ i =>
      have hx : x = (sensed[0]?).getD .released := by simpa using hb 0 (Nat.succ_pos i)
      rw [if_pos hx]
      refine ih (i := i) (by simpa using hi) (by simpa using hd) fun j hj => ?_
      simpa using hb (j + 1) (Nat.succ_lt_succ hj)

/-- Levels sensed as they were driven agree. -/
theorem compareLevels_self (ls : List Level) : compareLevels ls ls = none := by
  induction ls with
  | nil => rfl
  | cons l ls ih => exact (if_pos rfl).trans ih

/-! ### Contention (R30, R50, R51) -/

/-- R110: an answer that has ended leaves the PAL as Safety.lean spells it. -/
theorem Pal.endDeferral_eq (p : Pal) (l : Seq) : { p with owed := none }.endDeferral l = answerEnded p l := by
  have ha : ({ p with owed := none, answer := none } : Pal).applies l = true ↔
      p.state = .normal ∧ p.store.filter (fun r => decide (r.effective ≤ l)) ≠ [] := by
    simp [Pal.applies, Pal.deferral, Pal.due]
  unfold Pal.endDeferral answerEnded
  dsimp only
  split
  · rename_i h
    rw [if_pos (ha.1 h)]
    rfl
  · rename_i h
    rw [if_neg (fun h' => h (ha.2 h'))]

theorem Pal.cutAnswer_eq (p : Pal) (l : Seq) : p.cutAnswer l = match p.answer with
    | none => p
    | some _ => answerEnded p l := by
  unfold Pal.cutAnswer
  cases p.answer with
  | none => rfl
  | some a => exact Pal.endDeferral_eq p l

/-- R50: BUS HOLD; the hold timer runs in AUTOMATIC mode only. -/
theorem Pos.enterHold_eq (p : Pos) (mode : Recovery) (kind : DriveFault) : p.enterHold mode kind =
    { state := .busHold, silence := 0, batch := Batch.idle, slot := none, handover := none, turnaround := none
      hold := if mode = .automatic then some 0 else none, fault := some kind } := by
  cases mode <;> rfl

/-- CONTENTION outside a reset, where the LIF drives. -/
theorem exec_contention (kind : DriveFault) {s : State} {tx : Tx} (hr : s.inReset = false) (hd : s.lif.driver = .driving tx) :
    exec (.contention kind) s = .next (contend kind s) := by
  show execContention kind s = _
  simp [execContention, hd, Driver.driven, hr]

/-- Settles O32: the comparator, then the row at a station that does not drive and at one that does. -/
theorem contentionEntersBusHold : Obligations.ContentionEntersBusHold := by
  refine ⟨fun driven sensed i d hi hd hb => ?_, fun k => ?_, fun kind s hd => ?_, fun kind s tx c hr hd hc => ?_⟩
  · rw [compareLevels_first hi hd hb]
    exact ⟨by rintro rfl; rfl, by rintro rfl; rfl⟩
  · have hn : k.contention k.cells = none := compareLevels_self _
    exact ⟨hn, by rw [drivingRows, hn]⟩
  · show execContention kind s = _
    rw [execContention, hd]
  · have hg : s.cfg = c := by simp [State.cfg, hc]
    rw [exec_contention kind hr hd]
    simp only [contend, Pal.cutAnswer_eq, hg, Pos.enterHold_eq]
    cases kind <;> rfl

end Sys2Proof.Machine
end

section
/-! PROOF. A packet sent, and a SNAPSHOT REQUEST packet heard: O26 and O41. -/

namespace Sys2Proof.Machine

/-! ### What each class does next when its packet is sent -/

/-- R41: the classes that count against the hold budget, by name. -/
theorem TxClass.counted_iff (c : TxClass) : c.counted = true ↔
    c ∈ [.commit, .readReturn, .snapshotRequest, .retry, .priority, .palette, .request, .bulk, .invite] := by
  cases c <;> decide

/-- R29, R41: the POS after any packet sent. -/
theorem Pos.countSent_eq (p : Pos) (c : TxClass) : p.countSent c = { p with
    silence := 0
    batch := { p.batch with
      count := if c ∈ [.commit, .readReturn, .snapshotRequest, .retry, .priority, .palette, .request, .bulk, .invite]
        then p.batch.count + 1 else p.batch.count } } := by
  simp only [Pos.countSent, TxClass.counted_iff]

/-- R89: the station's own COMMIT packet: adopted as every station adopts it, and no longer pending. -/
theorem afterSent_commit (h : Head) (b : CommitBody) (u : State) (hv : u.inView = true) :
    afterSent .commit (.commit h (.good b)) u = choose { u with
      agr := { (u.agr.hearCommit u.number u.mem.view h.source b).1 with pendingCommit := none }
      cpe := { u.cpe with
        events := (u.agr.hearCommit u.number u.mem.view h.source b).2.foldl pushEvent u.cpe.events } } := by
  simp only [afterSent, onCommit, hv, if_true, State.raiseAll_eq]
  rfl

/-- R105, R108: the station's own PALETTE packet: its submission leaves the queue and the record is taken as every station takes it. -/
theorem afterSent_palette (h : Head) (p : Payload UpdateRecord) (u : State) (hv : u.inView = true) :
    let heard := { u.pal with outbound := u.pal.outbound.tail }.hearPalette h.source p
    afterSent .palette (.palette h p) u = choose { u with
      pal := heard.1, cpe := { u.cpe with events := heard.2.foldl pushEvent u.cpe.events } } := by
  simp only [afterSent, onPalette, State.inView_onPal, hv, if_true, State.raiseAll_eq]
  rfl

theorem Pal.outbound_breakAnswer (p : Pal) (own : Station) (k : Packet) : (p.breakAnswer own k).outbound = p.outbound := by
  rcases p.breakAnswer_cases own k with h | h
  · rw [h]
  · rw [h]; rfl

/-- R110, R119: a packet of an answer: the next one is due, or the answer has ended. -/
theorem Pal.answerSent_eq (p : Pal) (l : Seq) (a : Answer) (ha : p.answer = some a) : p.answerSent l =
    if a.next + 1 < 8 + a.n then { p with answer := some { a with next := a.next + 1 } } else answerEnded p l := by
  rw [← Pal.endDeferral_eq]
  unfold Pal.answerSent
  split
  · rename_i hn
    rw [hn] at ha
    cases ha
  · rename_i b hb
    obtain rfl : a = b := Option.some.inj (ha.symm.trans hb)
    rfl

/-- R71: a LEAVE packet that leaves members behind. -/
theorem leaveSent_others (u : State) (h : removeFrom u.number u.mem.view ≠ 0) :
    leaveSent u = choose { u with pos := { u.pos with batch := { u.pos.batch with leaveSent := true } } } := if_neg h

/-- R145: a record that seeks no reply is finished with MESSAGE SENT. -/
theorem Msg.sendHead_plain (g : Msg) (m : OutMessage) (hm : m.ack = false) :
    g.sendHead m = (g, [m.event .messageSent none]) := by
  rw [Msg.sendHead, hm]; rfl

/-- A MESSAGE packet that seeks no reply opens no slot. -/
theorem messageSent_unanswered (h : Head) (ack : Bool) (take : Msg → Msg × List EventRecord) (u : State)
    (hp : ack = false ∨ h.dest = .all) :
    let v := lowerMessageCredits h u
    messageSent h ack take u = choose ((v.onMsg (fun _ => (take v.msg).1)).raiseAll (take v.msg).2) := by
  rcases hp with rfl | hp
  · rfl
  · unfold messageSent
    rw [hp]
    cases ack <;> rfl

/-- R142, R145: its sender's credits fall, the record leaves its queue with MESSAGE SENT, and the scheduler chooses. -/
theorem messageSent_plain (h : Head) (ack : Bool) (take : Msg → Msg × List EventRecord) (u : State) (g : Msg) (m : OutMessage)
    (hp : ack = false ∨ h.dest = .all) (hm : m.ack = false)
    (ht : ∀ credits, take { u.msg with credits := credits } = { g with credits := credits }.sendHead m) :
    messageSent h ack take u = choose { u with
      msg := { g with credits := lowerFor u.msg.credits h.source h.dest }
      cpe := { u.cpe with events := [m.event .messageSent none].foldl pushEvent u.cpe.events } } := by
  have hg := (ht (lowerFor u.msg.credits h.source h.dest)).trans (Msg.sendHead_plain _ m hm)
  have hv : (lowerMessageCredits h u).msg = { u.msg with credits := lowerFor u.msg.credits h.source h.dest } := rfl
  rw [messageSent_unanswered h ack take u hp]
  dsimp only
  rw [hv, hg, State.raiseAll_eq]
  rfl

/-- Settles O26: `sentBy` unit by unit, then each class of packet over it. -/
theorem packetSentMovesThePossessionOn : Obligations.PacketSentMovesThePossessionOn := by
  refine ⟨fun s hd => ?_, fun s tx hr hd => ?_⟩
  · show execPacketSent s = _
    rw [execPacketSent, hd]
  have hx := exec_packetSent hr hd
  have hu := sentBy_eq tx s
  have hout : (sentBy tx s).pal.outbound = s.pal.outbound := by
    rw [hu]
    dsimp only
    split
    · exact Pal.outbound_breakAnswer _ _ _
    · rfl
  refine ⟨?_, fun hc => ?_, fun hc => ?_, fun hc => ?_, fun h b hc hk hv => ?_, fun a hc ha => ⟨fun hn => ?_, fun hn => ?_⟩,
    fun hc => ?_, fun h p hc hk hv => ?_, fun hc hv => ?_, fun h ack st p m rest hk hp hm => ⟨fun hc hq => ?_, fun hc hq => ?_⟩⟩
  · rw [hu, Pos.countSent_eq]; rfl
  · rw [hx, hc]; rfl
  · rw [hx, hc]; rfl
  · rw [hx, hc]; rfl
  · rw [hx, hc, hk, afterSent_commit h b _ (by rw [hu]; exact hv), hu]; rfl
  · rw [hx, hc]
    have hs := Pal.answerSent_eq _ (sentBy tx s).agr.l a ha
    rw [if_pos hn] at hs
    exact congrArg (fun q => Host.Outcome.next (choose { sentBy tx s with pal := q })) hs
  · rw [hx, hc]
    have hs := Pal.answerSent_eq _ (sentBy tx s).agr.l a ha
    rw [if_neg (Nat.not_lt.2 hn)] at hs
    have hl : (sentBy tx s).agr.l = s.agr.l := by rw [hu]
    rw [← hl]
    exact congrArg (fun q => Host.Outcome.next (choose { sentBy tx s with pal := q })) hs
  · rw [hx, hc, hu]; rfl
  · rw [hx, hc, hk, afterSent_palette h p _ (by rw [hu]; exact hv), hout, hu]
  · rw [hx, hc]
    exact congrArg Host.Outcome.next (leaveSent_others _ (by rw [hu]; exact hv))
  · rw [hx, hc, hk]
    have hg := messageSent_plain h ack Msg.sentPriority (sentBy tx s) { s.msg with priority := rest } m hp hm fun c => by
      rw [hu, Msg.sentPriority, hq]
    refine congrArg Host.Outcome.next (hg.trans ?_)
    rw [hu]; rfl
  · rw [hx, hc, hk]
    have hg := messageSent_plain h ack Msg.sentBulk (sentBy tx s) { s.msg with bulk := rest } m hp hm fun c => by
      rw [hu, Msg.sentBulk, hq]
    refine congrArg Host.Outcome.next (hg.trans ?_)
    rw [hu]; rfl

/-! ### A SNAPSHOT REQUEST packet (R44, R117) -/

/-- R117: the answer to a SNAPSHOT REQUEST packet by the state of the PAL. -/
theorem Pal.judgeRequest_eq (p : Pal) : p.judgeRequest =
    if p.state = .normal then (if p.owed = none then .accepted else .refusedBusy) else .refusedState := by
  unfold Pal.judgeRequest
  cases p.state <;> cases p.owed <;> rfl

/-- A packet that breaks an awaited answer makes no PAL NORMAL and none leave it. -/
theorem heardBy_normal (k : Packet) (s : State) :
    (s.pal.state = .normal → (heardBy k s).pal = s.pal) ∧ (s.pal.state ≠ .normal → (heardBy k s).pal.state ≠ .normal) := by
  rw [heardBy_pal]
  refine ⟨fun hn => ?_, fun hn => ?_⟩
  · split
    · exact breakAnswer_normal _ _ _ hn
    · rfl
  · split
    · rcases s.pal.breakAnswer_cases s.number k with h | h
      · rw [h]; exact hn
      · rw [h, Pal.endRequest_eq _ hn]; exact PaletteState.noConfusion
    · exact hn

/-- Settles O41: the packet goes to `onSnapshotRequest` over `heardBy`, whose PAL judges it. -/
theorem snapshotRequestIsAnswered : Obligations.SnapshotRequestIsAnswered := by
  intro h f s ht u answer ask
  have hask : ask = .next (onSnapshotRequest h u) := congrArg Host.Outcome.next (hear_taken (.snapshotRequest h f) _ s ht)
  obtain ⟨hn, hnn⟩ : (s.pal.state = .normal → u.pal = s.pal) ∧ (s.pal.state ≠ .normal → u.pal.state ≠ .normal) :=
    heardBy_normal _ s
  obtain ⟨lif, pal, hu⟩ : ∃ lif pal, u = { s with lif := lif, pos := { s.pos with silence := 0 }, pal := pal } :=
    ⟨_, _, heardBy_eq _ s⟩
  have hnum : u.number = s.number := by rw [hu]; rfl
  have hto : (addressed h u && answersRequests u) = true ↔
      h.dest = .station s.number ∧ s.startup.life = .member ∧ s.pos.state = .listening := by
    have hl : u.startup.life = s.startup.life := by rw [hu]
    have hp : u.pos.state = s.pos.state := by rw [hu]
    simp only [addressed, answersRequests, hnum, hl, hp, Bool.and_eq_true, beq_iff_eq]
  clear_value u ask
  have judged : h.dest = .station s.number → s.startup.life = .member → s.pos.state = .listening →
      ∀ r, u.pal.judgeRequest = r → ask = .next (answer r { u with
        pal := if r = .accepted then { u.pal with owed := some { requester := h.source, tag := h.tag } } else u.pal }) := by
    rintro hd hl hp r rfl
    rw [hask, onSnapshotRequest, if_pos (hto.2 ⟨hd, hl, hp⟩)]
    simp only [answer, ← hnum]
    rfl
  refine ⟨fun hno => ?_, fun hd hl hp => ⟨fun hs => ?_, fun hs ho => ?_, fun hs ho => ?_⟩⟩
  · rw [hask, onSnapshotRequest, if_neg (hno ∘ hto.1)]
  · exact judged hd hl hp _ (by rw [Pal.judgeRequest_eq, if_neg (hnn hs)])
  · exact judged hd hl hp _ (by rw [Pal.judgeRequest_eq, hn hs, if_pos hs, if_neg ho])
  · exact judged hd hl hp _ (by rw [Pal.judgeRequest_eq, hn hs, if_pos hs, if_pos ho])

end Sys2Proof.Machine
end

section
/-! PROOF. The ends of the reply slots of a request, an INVITE and a SNAPSHOT REQUEST packet, an unreadable packet and a possession
conflict in a slot: O47 and O48. -/

namespace Sys2Proof.Machine

/-! ### The rows that end a slot (R42) -/

/-- The reply window ends without activity: NO REPLY, and the scheduler chooses. -/
theorem exec_replyWindowEnd_quiet {s : State} {sl : Slot} (hr : s.inReset = false) (hp : s.pos.state = .awaitingReply)
    (hs : s.pos.slot = some sl) (ha : sl.activity = false) :
    exec .replyWindowEnd s = .next (resumePossession (slotOutcome sl .noReply s)) := by
  show execReplyWindowEnd s = _
  simp [execReplyWindowEnd, hs, hr, hp, ha]

/-- A reply begun inside the window holds the slot open (R42). -/
theorem exec_replyWindowEnd_active {s : State} {sl : Slot} (hs : s.pos.slot = some sl) (ha : sl.activity = true) :
    exec .replyWindowEnd s = .next s := by
  show execReplyWindowEnd s = _
  simp [execReplyWindowEnd, hs, ha]

/-- The ACK that a slot other than an INVITE's waits for is its reply. -/
theorem exec_ack_inSlot {s : State} {sl : Slot} {h : Head} (r : AckResult) (c : Bool) (f : Option Flaw) (hc : canHear s = true)
    (hl : s.startup.life ≠ .halted) (hp : s.pos.state = .awaitingReply) (hs : s.pos.slot = some sl) (ho : sl.owner ≠ .invite)
    (hsrc : h.source = sl.target) (hd : h.dest = .station s.number) (ht : h.tag = sl.tag) (hn : h.source ≠ s.number) :
    exec (.ackHeard h r c f) s = .next (resumePossession (slotOutcome sl (.ack r c) (heardBy (.ack h r c f) s))) := by
  have hr : replyIn s.number sl (.ack h r c f) = some (.ack r c) := if_pos ⟨ho, hsrc, hd, ht⟩
  have hx := hear_inSlot (.ack h r c f) id s sl hc hl hp hs hn
  rw [hr] at hx
  exact congrArg Host.Outcome.next hx

/-! ### The slot of a request (R131) -/

/-- A request's slot ended over a state: the entry with its outcome, the sender's credit zeroed at QUEUE FULL, the next choice. -/
theorem resume_slotOutcome_request {sl : Slot} {tag : Byte} {q : Request} (r : SlotResult) (s : State) (corrected : Bool)
    (ho : sl.owner = .request tag) (hq : s.att.find tag = some q)
    (hc : (if r.result.isSome then { q with corrected := r.corrected } else q) = { q with corrected := corrected }) :
    let out := ({ q with corrected := corrected } : Request).outcome r.result
    resumePossession (slotOutcome sl r s) = choose { s with
      pos := { s.pos with state := .possessing, slot := none }
      att := { s.att with requests := s.att.requests.map (fun o => if o.tag = tag then out.1 else o) }
      msg := { s.msg with credits := if r.result = some .queueFull
        then s.msg.credits.map (fun e => (e.1, if e.1 = sl.target.val then 0 else e.2)) else s.msg.credits }
      cpe := { s.cpe with events := out.2.foldl pushEvent s.cpe.events } } := by
  have hx := slotOutcome_request sl r s tag q ho hq
  simp only [hc] at hx
  rw [hx]
  rfl

/-- R131: an attempt that failed leaves the entry QUEUED until its fourth. -/
theorem Request.retryOr_eq (q : Request) (why : Reason) :
    (q.attempts < 4 → q.retryOr why = (q, [])) ∧
    (4 ≤ q.attempts → q.retryOr why = ({ q with state := .failed why }, [q.failedEvent why])) :=
  ⟨fun h => if_pos h, fun h => if_neg (Nat.not_lt.2 h)⟩

/-- R131: NO REPLY, and any result that no request has, is a failed attempt. -/
theorem Request.outcome_other (q : Request) {r : Option AckResult}
    (h : r ∉ [some .accepted, some .refusedRange, some .refusedReadOnly, some .refusedBusy]) : q.outcome r = q.retryOr .noReply := by
  unfold Request.outcome
  split
  · simp at h
  · simp at h
  · simp at h
  · simp at h
  · rfl

/-- Settles O47: both rows end the slot with `slotOutcome`, and the entry's outcome is read off case by case. -/
theorem slotOutcomeForARequest : Obligations.SlotOutcomeForARequest := by
  intro s u sl tag q c outcome corrected hp hs ho hq hcase event ends again
  obtain ⟨r, hres, hcor, hx, lif, pal, silence, hu⟩ : ∃ r : SlotResult, r.result = outcome ∧
      (if r.result.isSome then { q with corrected := r.corrected } else q) = { q with corrected := corrected } ∧
      exec c s = .next (resumePossession (slotOutcome sl r u)) ∧
      ∃ lif pal silence, u = { s with lif := lif, pos := { s.pos with silence := silence }, pal := pal } := by
    rcases hcase with ⟨rfl, rfl, rfl, rfl, hr, ha⟩ | ⟨h, a, f, rfl, rfl, rfl, hc, hl, hsrc, hd, ht, hn⟩
    · exact ⟨.noReply, rfl, rfl, exec_replyWindowEnd_quiet hr hp hs ha, _, _, _, rfl⟩
    · have hi : sl.owner ≠ .invite := by rw [ho]; exact SlotOwner.noConfusion
      exact ⟨.ack a corrected, rfl, rfl, exec_ack_inSlot a corrected f hc hl hp hs hi hsrc hd ht hn, _, _, _, heardBy_eq _ s⟩
  have outcomes : ∀ state es, ({ q with corrected := corrected } : Request).outcome outcome =
      ({ q with state := state, corrected := corrected }, es) → ends state es := by
    intro state es he
    have hends := resume_slotOutcome_request r u corrected ho (by rw [hu]; exact hq) hcor
    rw [hres] at hends
    simp only [he] at hends
    show exec c s = _
    rw [hx, hends, hu]
  have fails : ∀ why, ({ q with corrected := corrected } : Request).outcome outcome =
      ({ q with corrected := corrected } : Request).retryOr why → again why := fun why he =>
    have hr := Request.retryOr_eq { q with corrected := corrected } why
    ⟨fun hn => outcomes _ _ (he.trans (hr.1 hn)), fun hn => outcomes _ _ (he.trans (hr.2 hn))⟩
  refine ⟨?_, ?_, ?_, ?_, fun hno => fails _ (Request.outcome_other _ hno)⟩
  · rintro rfl
    refine ⟨fun start count hk => outcomes _ _ ?_, fun index value hk => outcomes _ _ ?_⟩
    · simp only [Request.outcome, hk]
    · simp only [Request.outcome, hk]; rfl
  · rintro rfl; exact outcomes _ _ rfl
  · rintro rfl; exact outcomes _ _ rfl
  · rintro rfl; exact fails _ rfl

/-! ### The slots of an INVITE and of a SNAPSHOT REQUEST packet (R42, R114) -/

/-- R114: the slot of a SNAPSHOT REQUEST packet: the outcome goes to the PAL, QUEUE FULL to the sender's credit (log 25). -/
theorem slotOutcome_snapshotRequest {sl : Slot} (r : SlotResult) (s : State) (ho : sl.owner = .snapshotRequest) :
    slotOutcome sl r s = { s with
      pos := { s.pos with slot := none }
      pal := s.pal.requestEnds r.result
      msg := if r.result = some .queueFull then { s.msg with credits := setCredit s.msg.credits sl.target 0 } else s.msg } := by
  simp only [slotOutcome, ho]
  split <;> rfl

/-- NO REPLY to an INVITE packet adds no member. -/
theorem slotOutcome_invite {sl : Slot} (s : State) (ho : sl.owner = .invite) :
    slotOutcome sl .noReply s = { s with pos := { s.pos with slot := none } } := by
  simp only [slotOutcome, ho]
  rfl

/-! ### NO REPLY to any waiting unit (R42) -/

/-- The slot is empty, and the unit that waited in it alone takes notice. -/
theorem slotOutcome_noReply (sl : Slot) (s : State) :
    let t := slotOutcome sl .noReply s
    t = { s with pos := { s.pos with slot := none }, pal := t.pal, att := t.att, msg := t.msg, cpe := t.cpe } ∧
    t.pal = (if sl.owner = .snapshotRequest then { s.pal with outstanding := false } else s.pal) := by
  cases ho : sl.owner with
  | invite => rw [slotOutcome_invite s ho]; exact ⟨rfl, rfl⟩
  | snapshotRequest => rw [slotOutcome_snapshotRequest .noReply s ho]; exact ⟨rfl, rfl⟩
  | request tag => simp only [slotOutcome, ho, State.raiseAll_eq]; exact ⟨rfl, rfl⟩
  | message => simp only [slotOutcome, ho, State.raiseAll_eq]; exact ⟨rfl, rfl⟩

/-- What NO REPLY leaves of the ATT, the MSG and the event queue, whoever waited. -/
theorem slotOutcome_noReply_keeps (sl : Slot) (s : State) :
    let t := slotOutcome sl .noReply s
    (sl.owner = .invite ∨ sl.owner = .snapshotRequest → t.att = s.att ∧ t.msg = s.msg ∧ t.cpe = s.cpe) ∧
    (∀ tag, sl.owner = .request tag → t.msg = s.msg) ∧ (sl.owner = .message → t.att = s.att) := by
  refine ⟨fun ho => ?_, fun tag ho => ?_, fun ho => ?_⟩
  · rcases ho with ho | ho
    · rw [slotOutcome_invite s ho]; exact ⟨rfl, rfl, rfl⟩
    · rw [slotOutcome_snapshotRequest .noReply s ho]; exact ⟨rfl, rfl, rfl⟩
  · simp only [slotOutcome, ho, State.raiseAll_eq]; rfl
  · simp only [slotOutcome, ho, State.raiseAll_eq]; rfl

/-- R131: NO REPLY to a request. -/
theorem slotOutcome_noReply_request {sl : Slot} {tag : Byte} {q : Request} (s : State) (ho : sl.owner = .request tag)
    (hq : s.att.find tag = some q) :
    let t := slotOutcome sl .noReply s
    let entry := fun (x : Request) => s.att.requests.map (fun o => if o.tag = tag then x else o)
    (q.attempts < 4 → t.cpe = s.cpe ∧ t.att = { s.att with requests := entry q }) ∧
    (4 ≤ q.attempts → t.att = { s.att with requests := entry { q with state := .failed .noReply } } ∧
      t.cpe = { s.cpe with events := pushEvent s.cpe.events (q.failedEvent .noReply) }) := by
  have hx := slotOutcome_request sl .noReply s tag q ho hq
  obtain ⟨h1, h2⟩ := Request.retryOr_eq q .noReply
  have hout : ∀ x, q.retryOr .noReply = x → (if (SlotResult.noReply).result.isSome then { q with corrected := false } else q).outcome
      SlotResult.noReply.result = x := fun x hx => hx
  refine ⟨fun hn => ?_, fun hn => ?_⟩
  · simp only [hout _ (h1 hn), SlotResult.corrected] at hx
    rw [hx]; exact ⟨rfl, rfl⟩
  · simp only [hout _ (h2 hn), SlotResult.corrected] at hx
    rw [hx]; exact ⟨rfl, rfl⟩

/-- R145: NO REPLY to a message, held from its queue or sent again. -/
theorem slotOutcome_noReply_message {sl : Slot} {m : OutMessage} (s : State) (ho : sl.owner = .message)
    (hm : s.msg.held = some m ∨ s.msg.held = none ∧ s.msg.retry = some m) :
    let t := slotOutcome sl .noReply s
    (m.attempts < 3 → t.msg = { s.msg with held := none, retry := some m } ∧ t.cpe = s.cpe) ∧
    (3 ≤ m.attempts → t.msg = { s.msg with held := none, retry := none } ∧
      t.cpe = { s.cpe with events := pushEvent s.cpe.events (m.event .messageFailed (some .noReply)) }) := by
  have hx := slotOutcome_message sl .noReply s m ho hm
  have hout : ∀ x, m.again .noReply = x → m.outcome SlotResult.noReply.corrected SlotResult.noReply.result = x := fun x hx => hx
  refine ⟨fun hn => ?_, fun hn => ?_⟩
  · have ha : m.again .noReply = (some m, []) := if_pos hn
    rw [hout _ ha] at hx
    rw [hx]; exact ⟨rfl, rfl⟩
  · have ha : m.again .noReply = (none, [m.event .messageFailed (some .noReply)]) := if_neg (Nat.not_lt.2 hn)
    rw [hout _ ha] at hx
    rw [hx]; exact ⟨rfl, rfl⟩

/-! ### An unreadable packet in a slot (R25, R42) -/

/-- The outcome of a slot asks neither whether activity has begun in it nor what stands in the slot. -/
theorem slotOutcome_activity (sl : Slot) (a : Bool) (x : Option Slot) (r : SlotResult) (s : State) :
    slotOutcome { sl with activity := a } r { s with pos := { s.pos with slot := x } } = slotOutcome sl r s := rfl

/-- The window's end over a state in whose slot no activity has begun. -/
theorem exec_replyWindowEnd_over (sl : Slot) {t : State} (hr : t.inReset = false) (hp : t.pos.state = .awaitingReply) :
    exec .replyWindowEnd { t with pos := { t.pos with slot := some { sl with activity := false } } } =
      .next (resumePossession (slotOutcome sl .noReply t)) :=
  (exec_replyWindowEnd_quiet (s := { t with pos := { t.pos with slot := some { sl with activity := false } } }) hr hp rfl rfl).trans
    (by rw [slotOutcome_activity])

/-- R25, R121: an unreadable packet zeroes the credits and fails an installation in progress. -/
theorem zeroCredits_breakUnreadable (s : State) : (zeroCredits s).onPal Pal.breakUnreadable = { s with
    pal := { (if s.pal.state = .receiving then { s.pal with state := .resync, store := [], outstanding := false,
                                                            wait := none, install := none } else s.pal)
             with credits := zeroOthers s.number s.pal.credits }
    msg := { s.msg with credits := zeroOthers s.number s.msg.credits } } := by
  by_cases h : s.pal.state = .receiving
  · simp only [zeroCredits, State.onPal, State.onMsg, Pal.breakUnreadable, Pal.endRequest, h, if_true]
  · simp only [zeroCredits, State.onPal, State.onMsg, Pal.breakUnreadable, h, if_false]

/-- What taking notice of an unreadable packet changes, outside a turnaround window (R26, R34). -/
def unreadableNoted (e : Unreadable) (s : State) : State := { s with
  lif := { s.lif with receiver := if s.lif.receiver = .armed then .armed else .draining, lastError := some (.unreadable e) }
  pos := { s.pos with silence := 0 } }

/-- In AWAITING REPLY an unreadable packet goes to the units over that. -/
theorem exec_unreadable_noted (e : Unreadable) {s : State} (hp : s.pos.state = .awaitingReply) (hc : canHear s = true)
    (hl : s.startup.life ≠ .halted) : exec (.unreadablePacketHeard e) s = .next (hearUnreadable (unreadableNoted e s)) := by
  have he := endHandover_other s.pos (.inl (by rw [hp]; exact Possession.noConfusion))
  have hn : notePacket (.unreadable e) (s.onLif (fun l => { l with receiver := if l.receiver = .armed then .armed else .draining })) =
      unreadableNoted e s := by
    simp only [notePacket, State.onLif, State.onPos, he]
    rfl
  rw [(exec_unreadable e s hc).1, unitsHear_unreadable e id (s.onLif _) hl, hn]

/-- R25, R42: the credits and the installation, then NO REPLY to the waiting unit. -/
theorem hearUnreadable_inSlot {t : State} {sl : Slot} (hv : t.inView = true) (hs : t.pos.slot = some sl)
    (hp : t.pos.state = .awaitingReply) : hearUnreadable t =
      resumePossession (slotOutcome sl .noReply ((zeroCredits t).onPal Pal.breakUnreadable)) := by
  have hs' : ((zeroCredits t).onPal Pal.breakUnreadable).pos.slot = some sl := hs
  have hp' : ((zeroCredits t).onPal Pal.breakUnreadable).pos.state = .awaitingReply := hp
  simp only [hearUnreadable, hv, if_true, unreadableInSlot, hs', hp']

/-- In AWAITING REPLY an unreadable packet is the reply window's end without activity, over what the packet changes. -/
theorem exec_unreadable_inSlot (e : Unreadable) {s : State} {sl : Slot} (hr : s.inReset = false) (hp : s.pos.state = .awaitingReply)
    (hs : s.pos.slot = some sl) (hc : canHear s = true) (hl : s.startup.life ≠ .halted) (hv : s.inView = true) :
    exec (.unreadablePacketHeard e) s = exec .replyWindowEnd { s with
      lif := { s.lif with receiver := if s.lif.receiver = .armed then .armed else .draining, lastError := some (.unreadable e) }
      pos := { s.pos with silence := 0, slot := some { sl with activity := false } }
      pal := { (if s.pal.state = .receiving then { s.pal with state := .resync, store := [], outstanding := false,
                                                              wait := none, install := none } else s.pal)
               with credits := zeroOthers s.number s.pal.credits }
      msg := { s.msg with credits := zeroOthers s.number s.msg.credits } } := by
  rw [exec_unreadable_noted e hp hc hl, hearUnreadable_inSlot (t := unreadableNoted e s) hv hs hp, zeroCredits_breakUnreadable]
  refine (exec_replyWindowEnd_over sl ?_ ?_).symm
  · exact hr
  · exact hp

/-! ### A possession conflict (R43) -/

/-- A readable packet of another station that is not the reply is taken in LISTENING, once the waiting unit has had NO REPLY. -/
theorem exec_conflict {k : Packet} {s : State} {sl : Slot} (hc : canHear s = true) (hl : s.startup.life ≠ .halted)
    (hp : s.pos.state = .awaitingReply) (hs : s.pos.slot = some sl) (hn : k.head.source ≠ s.number)
    (hr : replyIn s.number sl k = none) : exec k.row s = .next (actOn k (conflict sl (heardBy k s))) := by
  have hx := hear_inSlot k (actOn k) s sl hc hl hp hs hn
  rw [hr] at hx
  rw [exec_row]
  exact congrArg Host.Outcome.next hx

/-- No packet but a JOIN from the invited station, or an ACK with the slot's tag, is the reply of a slot (R42). -/
theorem replyIn_eq_none {own : Station} {sl : Slot} {k : Packet}
    (hj : sl.owner = .invite → ∀ h p f, k = .join h p f → ¬ (h.source = sl.target ∧ h.dest = .station own))
    (ha : sl.owner ≠ .invite → ∀ h r c f, k = .ack h r c f →
      ¬ (h.source = sl.target ∧ h.dest = .station own ∧ h.tag = sl.tag)) : replyIn own sl k = none := by
  unfold replyIn
  split
  · rename_i h p f
    exact if_neg fun hc => hj hc.1 h p f rfl hc.2
  · rename_i h r c f
    exact if_neg fun hc => ha hc.1 h r c f rfl hc.2
  · rfl

/-- What a possession conflict leaves, over what hearing the packet changes. -/
theorem conflict_heardBy (sl : Slot) (k : Packet) (s : State) :
    let u := heardBy k s
    let w := conflict sl u
    w = { u with
      pos := { u.pos with state := .listening, batch := Batch.idle, slot := none, handover := none, turnaround := none }
      pal := w.pal, att := w.att, msg := w.msg, cpe := w.cpe } ∧
    w.pal = (if sl.owner = .snapshotRequest then { u.pal with outstanding := false } else u.pal) ∧
    w.att = (slotOutcome sl .noReply u).att ∧ w.msg = (slotOutcome sl .noReply u).msg ∧
    w.cpe = (slotOutcome sl .noReply u).cpe := by
  obtain ⟨ht, hp⟩ := slotOutcome_noReply sl (heardBy k s)
  refine ⟨?_, hp, rfl, rfl, rfl⟩
  show (slotOutcome sl .noReply (heardBy k s)).onPos (fun p => { p.discard with state := .listening }) = _
  rw [ht]
  rfl

/-- Settles O48: the slots of an INVITE and of a SNAPSHOT REQUEST packet, then an unreadable packet and a conflict in any slot. -/
theorem slotEndsForTheOtherPackets : Obligations.SlotEndsForTheOtherPackets := by
  intro s sl hr hp hs resumed raised
  refine ⟨fun ha => ⟨fun ho => ?_, fun ho => ?_⟩, exec_replyWindowEnd_active hs, fun hc hl =>
    ⟨fun h r c f ho hsrc hd ht hn => ?_, fun e hv => exec_unreadable_inSlot e hr hp hs hc hl hv, fun k hn hj hack => ?_⟩⟩
  · rw [exec_replyWindowEnd_quiet hr hp hs ha, slotOutcome_invite s ho]; rfl
  · rw [exec_replyWindowEnd_quiet hr hp hs ha, slotOutcome_snapshotRequest .noReply s ho]; rfl
  · rw [exec_ack_inSlot r c f hc hl hp hs (by rw [ho]; exact SlotOwner.noConfusion) hsrc hd ht hn,
      slotOutcome_snapshotRequest _ _ ho]
    have hmsg : (heardBy (.ack h r c f) s).msg = s.msg := by rw [heardBy_eq]
    simp only [SlotResult.result, Option.some.injEq, Pal.requestEnds, hmsg]
    rfl
  · obtain ⟨hw, hpal, hatt, hmsg, hcpe⟩ := conflict_heardBy sl k s
    obtain ⟨hkeep, hreq, hmes⟩ := slotOutcome_noReply_keeps sl (heardBy k s)
    have request := fun tag q => slotOutcome_noReply_request (tag := tag) (q := q) (heardBy k s) (sl := sl)
    have message := fun m => slotOutcome_noReply_message (m := m) (heardBy k s) (sl := sl)
    have h1 : (heardBy k s).att = s.att := by rw [heardBy_eq]
    have h2 : (heardBy k s).msg = s.msg := by rw [heardBy_eq]
    have h3 : (heardBy k s).cpe = s.cpe := by rw [heardBy_eq]
    dsimp only at hkeep hreq hmes request message
    simp only [← hatt, ← hmsg, ← hcpe, h1, h2, h3] at hkeep hreq hmes request message
    exact ⟨_, exec_conflict hc hl hp hs hn (replyIn_eq_none hj hack), hw, hpal, hkeep,
      fun tag ho => ⟨hreq tag ho, fun q hq => request tag q ho hq⟩,
      fun ho => ⟨hmes ho, fun m hm => message m ho hm⟩⟩

end Sys2Proof.Machine
end

section
/-! PROOF. The header check: what one wrong bit does to the syndrome and to the parity, and O56. -/

namespace Sys2Proof

/-! ### Parity (R177) -/

theorem oddOnes_cons (b : Bool) (bits : List Bool) : oddOnes (b :: bits) = xor b (oddOnes bits) := rfl

theorem oddOnes_reverse (bits : List Bool) : oddOnes bits.reverse = oddOnes bits := by
  have hc : LeftCommutative xor := ⟨Bool.xor_left_comm⟩
  exact (List.reverse_perm bits).foldr_eq false

/-- One bit inverted turns the parity. -/
theorem oddOnes_invertAt {i : Nat} {data : List Bool} (hi : i < data.length) : oddOnes (invertAt i data) = !oddOnes data := by
  induction data generalizing i with
  | nil => cases hi
  | cons d ds ih =>
    cases i with
    | zero => simp [invertAt, oddOnes_cons]
    | succ i =>
      have hr : oddOnes (invertAt i ds) = !oddOnes ds := ih (Nat.lt_of_succ_lt_succ hi)
      show oddOnes (d :: invertAt i ds) = !oddOnes (d :: ds)
      rw [oddOnes_cons, oddOnes_cons, hr, Bool.xor_not]

theorem length_invertAt (i : Nat) (data : List Bool) : (invertAt i data).length = data.length := List.length_modify _ _ _

theorem invertAt_invertAt (i : Nat) (data : List Bool) : invertAt i (invertAt i data) = data := by
  simp only [invertAt, List.modify_modify_eq]
  rw [show not ∘ not = id from funext Bool.not_not]
  exact List.modify_id _ _

/-- One bit of a byte inverted turns its parity. -/
theorem oddOnes_bitsOfByte_xor (b : Byte) {j : Nat} (hj : j < 8) :
    oddOnes (bitsOfByte (b ^^^ (1#8 <<< j))) = !oddOnes (bitsOfByte b) := by
  interval_cases j <;> simp [bitsOfByte, oddOnes]

/-! ### The check bits (R177) -/

/-- The check bits of data bits at the position numbers of a list. -/
def checkOver (data : List Bool) (positions : List (BitVec 7)) : BitVec 7 :=
  ((data.zip positions).map (fun e => if e.1 then e.2 else 0)).foldr (· ^^^ ·) 0

theorem checkBits_eq (data : List Bool) : checkBits data = checkOver data dataPositions := rfl

theorem checkOver_cons (d : Bool) (ds : List Bool) (p : BitVec 7) (ps : List (BitVec 7)) :
    checkOver (d :: ds) (p :: ps) = (if d then p else 0) ^^^ checkOver ds ps := rfl

/-- One data bit inverted adds its position number to the check bits. -/
theorem checkOver_invertAt {i : Nat} {data : List Bool} {ps : List (BitVec 7)} (hi : i < data.length) :
    checkOver (invertAt i data) ps = checkOver data ps ^^^ ps.getD i 0 := by
  induction data generalizing i ps with
  | nil => cases hi
  | cons d ds ih =>
    cases ps with
    | nil => simp [checkOver]
    | cons p ps =>
      cases i with
      | zero =>
        show checkOver ((!d) :: ds) (p :: ps) = checkOver (d :: ds) (p :: ps) ^^^ p
        rw [checkOver_cons, checkOver_cons, BitVec.xor_comm _ p, ← BitVec.xor_assoc]
        cases d <;> simp
      | succ i =>
        show checkOver (d :: invertAt i ds) (p :: ps) = checkOver (d :: ds) (p :: ps) ^^^ ps.getD i 0
        rw [checkOver_cons, checkOver_cons, ih (Nat.lt_of_succ_lt_succ hi), BitVec.xor_assoc]

/-! ### Position numbers and check marks -/

/-- The position number of data bit i, counted from 0. -/
def position (i : Nat) : BitVec 7 := dataPositions.getD i 0

/-- What the inversion of bit j of the check byte adds to the syndrome: nothing for bit 7, the parity bit. -/
def checkMark (j : Nat) : BitVec 7 := (1#8 <<< j).setWidth 7

/-- The syndromes of a wrong bit of the check byte. -/
def checkMarks : List (BitVec 7) := [0, 1, 2, 4, 8, 16, 32, 64]

theorem idxOf?_position : ∀ i, i < 96 → dataPositions.idxOf? (position i) = some i := by decide +kernel

theorem position_not_mem : ∀ i, i < 96 → position i ∉ checkMarks := by decide +kernel

theorem checkMark_mem : ∀ j, j < 8 → checkMark j ∈ checkMarks := by decide +kernel

theorem checkMark_inj : ∀ j, j < 8 → ∀ j', j' < 8 → checkMark j = checkMark j' → j = j' := by decide +kernel

theorem position_inj {i i' : Nat} (hi : i < 96) (hi' : i' < 96) (h : position i = position i') : i = i' := by
  have h1 := idxOf?_position i hi
  rw [h, idxOf?_position i' hi'] at h1
  exact (Option.some.inj h1).symm

/-! ### The syndrome and the parity of a header received (R19) -/

/-- The check bits received against those of the data received. -/
def syndrome (data : List Bool) (check : Byte) : BitVec 7 := checkBits data ^^^ check.setWidth 7

/-- All 104 bits hold an odd number of ones. -/
def unbalanced (data : List Bool) (check : Byte) : Bool := xor (oddOnes data) (oddOnes (bitsOfByte check))

/-- An even parity admits the header only with no syndrome. -/
theorem correctHeader_balanced {data : List Bool} {check : Byte} (h : unbalanced data check = false) :
    correctHeader data check = if syndrome data check = 0 then some (data, false) else none := by
  have h' : xor (oddOnes data) (oddOnes (bitsOfByte check)) = false := h
  simp only [correctHeader, h']
  rfl

/-- An odd parity is one wrong bit: of the check byte, or the data bit that the syndrome numbers. -/
theorem correctHeader_unbalanced {data : List Bool} {check : Byte} (h : unbalanced data check = true) :
    correctHeader data check = if syndrome data check ∈ checkMarks then some (data, true)
      else (dataPositions.idxOf? (syndrome data check)).map (fun i => (invertAt i data, true)) := by
  have h' : xor (oddOnes data) (oddOnes (bitsOfByte check)) = true := h
  simp only [correctHeader, h']
  rfl

section
variable {data : List Bool} {check : Byte} {i j : Nat}

theorem syndrome_invertAt (hi : i < data.length) : syndrome (invertAt i data) check = syndrome data check ^^^ position i := by
  rw [syndrome, checkBits_eq, checkOver_invertAt hi, BitVec.xor_assoc, BitVec.xor_comm _ (check.setWidth 7), ← BitVec.xor_assoc]
  rfl

theorem unbalanced_invertAt (hi : i < data.length) : unbalanced (invertAt i data) check = !unbalanced data check := by
  rw [unbalanced, oddOnes_invertAt hi, Bool.not_xor, unbalanced]

theorem syndrome_wrong : syndrome data (check ^^^ (1#8 <<< j)) = syndrome data check ^^^ checkMark j := by
  rw [syndrome, BitVec.setWidth_xor, ← BitVec.xor_assoc]
  rfl

theorem unbalanced_wrong (hj : j < 8) : unbalanced data (check ^^^ (1#8 <<< j)) = !unbalanced data check := by
  rw [unbalanced, oddOnes_bitsOfByte_xor check hj, Bool.xor_not, unbalanced]

end

/-- The check byte gives its data no syndrome. -/
theorem syndrome_headerCheck (data : List Bool) : syndrome data (headerCheck data) = 0 := by
  rw [syndrome, headerCheck, BitVec.setWidth_cons, BitVec.xor_self]
  rfl

/-- The check byte makes the parity even. -/
theorem unbalanced_headerCheck (data : List Bool) : unbalanced data (headerCheck data) = false := by
  have hb : ∀ (b : Bool) (c : BitVec 7), oddOnes (bitsOfByte (BitVec.cons b c)) =
      xor b (oddOnes (List.ofFn (fun k : Fin 7 => c.getLsbD k))) := by
    intro b c
    have hbits : bitsOfByte (BitVec.cons b c) = b :: (List.ofFn (fun k : Fin 7 => c.getLsbD k)).reverse := by
      simp [bitsOfByte, BitVec.getElem_cons, List.ofFn_succ]
    rw [hbits, oddOnes_cons, oddOnes_reverse]
  rw [unbalanced, headerCheck, hb]
  cases oddOnes data <;> simp

/-- Settles O56: from a header with no syndrome and an even parity, one wrong bit makes the parity odd and the syndrome its own
number, and two leave the parity even with a syndrome that is not 0. -/
theorem headerCheckCorrectsOneDetectsTwo : Obligations.HeaderCheckCorrectsOneDetectsTwo := by
  intro data hlen check wrong
  have hs : syndrome data check = 0 := syndrome_headerCheck data
  have hu : unbalanced data check = false := unbalanced_headerCheck data
  have hdata : ∀ {i}, i < 96 → i < data.length := fun hi => by rw [hlen]; exact hi
  have zero_xor : ∀ p : BitVec 7, 0 ^^^ p = p := fun _ => BitVec.zero_xor
  clear_value check
  refine ⟨?_, fun i hi => ?_, fun j hj => ?_, fun i i' hi hi' hne => ?_, fun i j hi hj => ?_, fun j j' hj hj' hne => ?_⟩
  · rw [correctHeader_balanced hu, if_pos hs]
  · have hs' : syndrome (invertAt i data) check = position i := by rw [syndrome_invertAt (hdata hi), hs, zero_xor]
    rw [correctHeader_unbalanced (by rw [unbalanced_invertAt (hdata hi), hu]; rfl), hs', if_neg (position_not_mem i hi),
      idxOf?_position i hi, Option.map_some, invertAt_invertAt]
  · have hs' : syndrome data (wrong j check) = checkMark j := by rw [syndrome_wrong, hs, zero_xor]
    rw [correctHeader_unbalanced (by rw [unbalanced_wrong hj, hu]; rfl), hs', if_pos (checkMark_mem j hj)]
  · have hi2 : i < (invertAt i' data).length := by rw [length_invertAt]; exact hdata hi
    have hs' : syndrome (invertAt i (invertAt i' data)) check = position i' ^^^ position i := by
      rw [syndrome_invertAt hi2, syndrome_invertAt (hdata hi'), hs, zero_xor]
    rw [correctHeader_balanced (by rw [unbalanced_invertAt hi2, unbalanced_invertAt (hdata hi'), hu]; rfl), hs', if_neg]
    exact fun h => hne (position_inj hi hi' (BitVec.xor_eq_zero_iff.1 h).symm)
  · have hs' : syndrome (invertAt i data) (wrong j check) = position i ^^^ checkMark j := by
      rw [syndrome_wrong, syndrome_invertAt (hdata hi), hs, zero_xor]
    rw [correctHeader_balanced (by rw [unbalanced_wrong hj, unbalanced_invertAt (hdata hi), hu]; rfl), hs', if_neg]
    exact fun h => position_not_mem i hi (BitVec.xor_eq_zero_iff.1 h ▸ checkMark_mem j hj)
  · have hs' : syndrome data (wrong j (wrong j' check)) = checkMark j' ^^^ checkMark j := by
      rw [syndrome_wrong, syndrome_wrong, hs, zero_xor]
    rw [correctHeader_balanced (by rw [unbalanced_wrong hj, unbalanced_wrong hj', hu]; rfl), hs', if_neg]
    exact fun h => hne (checkMark_inj j hj j' hj' (BitVec.xor_eq_zero_iff.1 h).symm)

end Sys2Proof
end

section
/-! PROOF. The line: bits and cells of bytes, the fields of a packet sent and judged, and O55. -/

namespace Sys2Proof

/-! ### Bits, bytes and cells (R13, R15) -/

theorem byteOfBits_bitsOfByte : ∀ b : Byte, byteOfBits (bitsOfByte b) = b := by decide +kernel

theorem bytesOfBits_bitsOfBytes (bs : List Byte) : bytesOfBits (bitsOfBytes bs) = some bs := by
  induction bs with
  | nil => rfl
  | cons b bs ih =>
    show (bytesOfBits (bitsOfBytes bs)).map (fun t => byteOfBits (bitsOfByte b) :: t) = _
    rw [ih, byteOfBits_bitsOfByte, Option.map_some]

/-- Driven bits are sensed as the bits they are. -/
theorem takeBits_dataCells {n : Nat} (bits : List Bool) (rest : List Cell) (hn : bits.length = n) :
    takeBits n (bits.map dataCell ++ rest) = some (bits, rest) := by
  induction bits generalizing n with
  | nil => subst hn; rfl
  | cons b bs ih =>
    subst hn
    have hk : (dataCell b).kind = .data b := by cases b <;> rfl
    simp only [List.map_cons, List.cons_append, List.length_cons, takeBits, hk, ih rfl, Option.map_some]

/-- The start delimiter is found and the cells after it are judged (R14). -/
theorem afterStart_startDelimiter (rest : List Cell) : afterStart (startDelimiter ++ rest) = some rest := by
  simp [startDelimiter, afterStart, dataCell, Cell.kind]

/-! ### The header (R18 to R20) -/

theorem length_argument (k : Packet) : k.argument.length = 6 := by cases k <;> rfl

theorem length_header (k : Packet) : k.header.length = 12 := by simp [Packet.header, length_argument, bytesOfSerial]

/-- A header received as it was sent is used as it stands. -/
theorem correctHeader_headerCheck (data : List Bool) : correctHeader data (headerCheck data) = some (data, false) := by
  rw [correctHeader_balanced (unbalanced_headerCheck data), if_pos (syndrome_headerCheck data)]

/-- The cells after the header of a packet sent. -/
def Packet.tail (k : Packet) : List Cell :=
  (if longKind k.code then bitsOfBytes (k.payload ++ bytesOfSerial (payloadCheck k.payload)) else []).map dataCell ++ endDelimiter

/-- The cells sent are judged by their header bytes and the cells after them. -/
theorem judge_cells (k : Packet) : judge k.cells = judgeHeader k.header false k.tail := by
  have hc : k.cells = startDelimiter ++
      ((bitsOfBytes k.header ++ bitsOfByte (headerCheck (bitsOfBytes k.header))).map dataCell ++ k.tail) := by
    simp only [Packet.cells, Packet.bits, Packet.tail, List.map_append, List.append_assoc]
  have hd : (bitsOfBytes k.header).length = 96 := by rw [Machine.bitsOfBytes_length, length_header]
  have ht := takeBits_dataCells (n := 104) (bitsOfBytes k.header ++ bitsOfByte (headerCheck (bitsOfBytes k.header))) k.tail
    (by rw [List.length_append, hd]; rfl)
  simp only [judge, hc, afterStart_startDelimiter, ht, List.take_left' hd, List.drop_left' hd, byteOfBits_bitsOfByte,
    correctHeader_headerCheck, bytesOfBits_bitsOfBytes, Option.getD_some]

/-- The flags beside the source in byte 1 (R18). -/
theorem flags_source : ∀ f ∈ ([0, 0x40, 0x80] : List Byte), ∀ n : Station, (f ||| BitVec.ofNat 8 n.val).toNat % 32 = n.val ∧
    (f ||| BitVec.ofNat 8 n.val).getLsbD 6 = f.getLsbD 6 ∧ (f ||| BitVec.ofNat 8 n.val).getLsbD 7 = f.getLsbD 7 := by
  decide +kernel

theorem flags_mem (k : Packet) : k.flags ∈ ([0, 0x40, 0x80] : List Byte) := by
  unfold Packet.flags
  split
  · split <;> decide
  · decide
  · decide

theorem destOfByte_destByte (d : Dest) : destOfByte (destByte d) = some d := by
  cases d with
  | all => rfl
  | station n => revert n; decide

theorem knownKind_code (k : Packet) : knownKind k.code = true := by cases k <;> rfl

/-! ### The payload and its check (R20 to R22) -/

/-- The payload sent is received with its check and the end delimiter after it. -/
theorem longBody_sent (payload : List Byte) : longBody payload.length
    ((bitsOfBytes (payload ++ bytesOfSerial (payloadCheck payload))).map dataCell ++ endDelimiter) = .good payload := by
  have ht := takeBits_dataCells (n := 8 * (payload.length + 2)) (bitsOfBytes (payload ++ bytesOfSerial (payloadCheck payload)))
    endDelimiter (by rw [Machine.bitsOfBytes_length, List.length_append]; rfl)
  have he : endsHere endDelimiter = true := rfl
  simp [longBody, ht, he, bytesOfBits_bitsOfBytes]

/-- A packet whose length its kind admits is received with its payload. -/
theorem bodyOf_sent (k : Packet) {a b : Byte} (ha : admits k.code k.payload.length a b = true)
    (hs : longKind k.code = false → k.payload = []) : bodyOf k.code k.payload.length a b k.tail = .good k.payload := by
  unfold bodyOf Packet.tail
  cases hl : longKind k.code with
  | true => simp only [ha, Bool.not_true, Bool.false_eq_true, if_false, if_true, longBody_sent]
  | false => rw [ha, hs hl]; rfl

/-- A short packet has no payload (R18). -/
theorem payload_short (k : Packet) (h : longKind k.code = false) : k.payload = [] := by
  cases k with
  | handover => rfl
  | claim => rfl
  | invite => rfl
  | join => rfl
  | leave => rfl
  | snapshotRequest => rfl
  | read => rfl
  | write => rfl
  | ack => rfl
  | status => cases h
  | commit => cases h
  | palette => cases h
  | snapshot => cases h
  | replay => cases h
  | message => cases h
  | readReturn => cases h

/-- The head that a receiver reads from header bytes 1 to 3 is the head sent. -/
theorem judgeHeader_sent (k : Packet) {a b c x y z : Byte} (harg : k.argument = [a, b, c, x, y, z])
    (hadm : admits k.code k.payload.length a b = true) (hlen : k.payload.length < 1024) (hcor : k.head.corrected = false)
    (hof : packetOf k.code (k.flags ||| BitVec.ofNat 8 k.head.source.val) k.head [a, b, c, x, y, z] (.good k.payload) = some k) :
    judgeHeader k.header false k.tail = .readable k := by
  have hh : k.header = [k.code, k.flags ||| BitVec.ofNat 8 k.head.source.val, destByte k.head.dest, k.head.tag,
      byteAt (BitVec.ofNat 16 k.payload.length) 8, byteAt (BitVec.ofNat 16 k.payload.length) 0, a, b, c, x, y, z] := by
    rw [Packet.header, harg]; rfl
  have hl : (serialOfBytes (byteAt (BitVec.ofNat 16 k.payload.length) 8) (byteAt (BitVec.ofNat 16 k.payload.length) 0)).toNat % 1024 =
      k.payload.length := by
    rw [Laws.serialOfBytes_byteAt, BitVec.toNat_ofNat]; omega
  have hhead : ∀ hs, ({ source := ⟨(k.flags ||| BitVec.ofNat 8 k.head.source.val).toNat % 32, hs⟩, dest := k.head.dest
                        tag := k.head.tag, corrected := false } : Head) = k.head := by
    intro hs
    have hsrc := (flags_source k.flags (flags_mem k) k.head.source).1
    simp only [hsrc, ← hcor]
  simp only [hh, judgeHeader, knownKind_code, destOfByte_destByte, hl, hhead, bodyOf_sent k hadm (payload_short k), hof,
    Bool.not_true, Bool.false_eq_true, if_false]

/-! ### The lengths of payloads (R21, section 11.2) -/

theorem flatMap_wordOfColor (es : List Color) :
    es.flatMap wordOfColor = (es.map (fun c => c.setWidth 32)).flatMap bytesOfValue := by
  rw [List.flatMap_map]; rfl

theorem length_flatMap_wordOfColor (es : List Color) : (es.flatMap wordOfColor).length = 4 * es.length := by
  rw [flatMap_wordOfColor, Laws.length_flatMap_bytesOfValue, List.length_map]

theorem length_recordBytes (r : UpdateRecord) : (recordBytes r).length = 9 + 4 * r.entries.length := by
  simp only [recordBytes, List.length_append, length_flatMap_wordOfColor]
  rfl

theorem length_snapshotBytes (b : SnapshotBody) :
    (snapshotBytes b).length = (if b.lead.isSome then 8 else 0) + 4 * b.entries.length := by
  simp only [snapshotBytes, List.length_append, length_flatMap_wordOfColor]
  cases b.lead <;> rfl

/-! ### The payloads read back (R22, section 11.2) -/

theorem colorsOfBytes_flatMap (es : List Color) : colorsOfBytes (es.flatMap wordOfColor) = es := by
  have hw : ∀ c : Color, (c.setWidth 32).setWidth 30 = c := fun c => by simp
  rw [colorsOfBytes, flatMap_wordOfColor, Laws.wordsOfBytes_flatMap, List.map_map]
  simp [Function.comp_def]

theorem stateOfByte_status (p : Bool) (s : PaletteState) :
    ((if p then 0x80 else 0x00) ||| paletteCode s : Byte).getLsbD 7 = p ∧
    stateOfByte ((if p then 0x80 else 0x00) ||| paletteCode s) = s := by
  cases p <;> cases s <;> decide

theorem statusOfBytes_statusBytes (b : StatusBody) : statusOfBytes (statusBytes b) = .good b := by
  obtain ⟨hp, hs⟩ := stateOfByte_status b.participant b.palette
  show Payload.good ({ l := seqOfBytes .., r := seqOfBytes .., c := seqOfBytes .., e := serialOfBytes .., .. } : StatusBody) = _
  simp only [Laws.seqOfBytes_byteAt, Laws.serialOfBytes_byteAt, hp, hs]

theorem commitOfBytes_sent (b : CommitBody) : commitOfBytes (bytesOfSeq b.n ++ bytesOfValue b.inStep) = .good b := by
  show Payload.good ({ n := seqOfBytes .., inStep := valueOfBytes .. } : CommitBody) = _
  simp only [Laws.seqOfBytes_byteAt, Laws.valueOfBytes_byteAt]

theorem recordOfBytes_recordBytes (r : UpdateRecord) : recordOfBytes (recordBytes r) = .good r := by
  show Payload.good ({ serial := serialOfBytes .., effective := seqOfBytes .., start := serialOfBytes ..
                       entries := colorsOfBytes (r.entries.flatMap wordOfColor) } : UpdateRecord) = _
  simp only [Laws.seqOfBytes_byteAt, Laws.serialOfBytes_byteAt, colorsOfBytes_flatMap]

theorem snapshotOfBytes_snapshotBytes (part : Byte) (b : SnapshotBody) (h : b.lead.isSome = decide (part = 0)) :
    snapshotOfBytes part (snapshotBytes b) = .good b := by
  obtain ⟨lead, entries⟩ := b
  cases lead with
  | none =>
    have hp : part ≠ 0 := by simpa using h
    show snapshotOfBytes part (entries.flatMap wordOfColor) = _
    unfold snapshotOfBytes
    rw [if_neg hp, colorsOfBytes_flatMap]
  | some l =>
    have hp : part = 0 := by simpa using h
    unfold snapshotOfBytes
    rw [if_pos hp]
    show Payload.good ({ lead := some { s := seqOfBytes .., e0 := serialOfBytes .., n := l.n }
                         entries := colorsOfBytes (entries.flatMap wordOfColor) } : SnapshotBody) = _
    simp only [Laws.seqOfBytes_byteAt, Laws.serialOfBytes_byteAt, colorsOfBytes_flatMap]

theorem resultOfByte_resultByte {r : AckResult} (h : r ≠ .other) : resultOfByte (resultByte r) = r := by
  cases r with
  | other => exact absurd rfl h
  | _ => rfl

theorem flagByte_bit (b : Bool) : (flagByte b).getLsbD 0 = b := by cases b <;> rfl


/-! ### Every packet that can be sent (R29, R176) -/

/-- What the argument bytes and the payload of a packet give a receiver: a length that the kind admits, and the packet itself. -/
def ReadBack (k : Packet) : Prop :=
  ∃ a b c x y z, k.argument = [a, b, c, x, y, z] ∧ admits k.code k.payload.length a b = true ∧ k.payload.length < 1024 ∧
    packetOf k.code (k.flags ||| BitVec.ofNat 8 k.head.source.val) k.head [a, b, c, x, y, z] (.good k.payload) = some k

/-- The attempt of a HANDOVER packet and the ack flag of a MESSAGE packet stand beside the source (R18). -/
theorem attempt_bit (a : Attempt) (n : Station) (h : Head) (v : StationSet) (f : Option Flaw) :
    (if ((Packet.handover h a v f).flags ||| BitVec.ofNat 8 n.val).getLsbD 6 then Attempt.second else .first) = a := by
  rw [(flags_source _ (flags_mem _) n).2.1]
  cases a <;> simp [Packet.flags]

theorem ack_bit (h : Head) (ack : Bool) (st : BitVec 2) (p : Payload (List Byte)) (n : Station) :
    ((Packet.message h ack st p).flags ||| BitVec.ofNat 8 n.val).getLsbD 7 = ack := by
  rw [(flags_source _ (flags_mem _) n).2.2]
  cases ack <;> simp [Packet.flags]

/-- A packet without a payload whose argument bytes are read back as they stand. -/
theorem readBack_plain {k : Packet} {a b c x y z : Byte} (harg : k.argument = [a, b, c, x, y, z]) (hp : k.payload = [])
    (hadm : admits k.code 0 a b = true)
    (hof : packetOf k.code (k.flags ||| BitVec.ofNat 8 k.head.source.val) k.head [a, b, c, x, y, z] (.good []) = some k) :
    ReadBack k :=
  ⟨a, b, c, x, y, z, harg, by rw [hp]; exact hadm, by rw [hp]; exact Nat.zero_lt_succ _, by rw [hp]; exact hof⟩

theorem readBack_handover (h : Head) (a : Attempt) (v : StationSet) : ReadBack (.handover h a v none) := by
  refine ⟨_, _, _, _, _, _, rfl, rfl, (by decide : 0 < 1024), ?_⟩
  show some (Packet.handover h (if _ then _ else _) (valueOfBytes _ _ _ _) none) = _
  rw [Laws.valueOfBytes_byteAt, attempt_bit]

theorem readBack_join (h : Head) (p : Bool) : ReadBack (.join h p none) := by
  refine ⟨_, _, _, _, _, _, rfl, rfl, (by decide : 0 < 1024), ?_⟩
  show some (Packet.join h ((flagByte p).getLsbD 0) none) = _
  rw [flagByte_bit]

theorem readBack_status (h : Head) (b : StatusBody) : ReadBack (.status h (.good b)) := by
  refine ⟨_, _, _, _, _, _, rfl, rfl, (by decide : 20 < 1024), ?_⟩
  show some (Packet.status h (statusOfBytes (statusBytes b))) = _
  rw [statusOfBytes_statusBytes]

theorem readBack_commit (h : Head) (b : CommitBody) : ReadBack (.commit h (.good b)) := by
  refine ⟨_, _, _, _, _, _, rfl, rfl, (by decide : 9 < 1024), ?_⟩
  show some (Packet.commit h (commitOfBytes (bytesOfSeq b.n ++ bytesOfValue b.inStep))) = _
  rw [commitOfBytes_sent]

/-- R21: the count byte of a record admits its length. -/
theorem admits_record (r : UpdateRecord) (h1 : 1 ≤ r.entries.length) (h64 : r.entries.length ≤ 64) (b : Byte) :
    admits 0x08 (recordBytes r).length (BitVec.ofNat 8 r.entries.length) b = true ∧
    admits 0x0B (recordBytes r).length (BitVec.ofNat 8 r.entries.length) b = true ∧ (recordBytes r).length < 1024 := by
  have hn : (BitVec.ofNat 8 r.entries.length).toNat = r.entries.length := Laws.toNat_ofNat_byte (by omega)
  rw [length_recordBytes]
  refine ⟨?_, ?_, by omega⟩ <;> simp [admits, hn, h1, h64]

theorem readBack_palette (h : Head) (r : UpdateRecord) (h1 : 1 ≤ r.entries.length) (h64 : r.entries.length ≤ 64) :
    ReadBack (.palette h (.good r)) := by
  obtain ⟨ha, _, hl⟩ := admits_record r h1 h64 0
  refine ⟨_, _, _, _, _, _, rfl, ha, hl, ?_⟩
  show some (Packet.palette h (recordOfBytes (recordBytes r))) = _
  rw [recordOfBytes_recordBytes]

theorem readBack_replay (h : Head) (r : UpdateRecord) (h1 : 1 ≤ r.entries.length) (h64 : r.entries.length ≤ 64) :
    ReadBack (.replay h (.good r)) := by
  obtain ⟨_, ha, hl⟩ := admits_record r h1 h64 0
  refine ⟨_, _, _, _, _, _, rfl, ha, hl, ?_⟩
  show some (Packet.replay h (recordOfBytes (recordBytes r))) = _
  rw [recordOfBytes_recordBytes]

theorem readBack_snapshot (h : Head) (part : Byte) (b : SnapshotBody) (hp : part.toNat ≤ 7) (he : b.entries.length = 64)
    (hl : b.lead.isSome = decide (part = 0)) : ReadBack (.snapshot h part (.good b)) := by
  have hn : (snapshotBytes b).length = if part = 0 then 264 else 256 := by
    rw [length_snapshotBytes, he, hl]
    by_cases h0 : part = 0
    · rw [h0]; rfl
    · simp only [h0, decide_false, if_false]; rfl
  refine ⟨_, _, _, _, _, _, rfl, ?_, ?_, ?_⟩
  · show admits 0x0A (snapshotBytes b).length part 0 = true
    rw [hn]
    by_cases h0 : part = 0 <;> simp [admits, h0, hp]
  · show (snapshotBytes b).length < 1024
    rw [hn]
    split <;> decide
  · show some (Packet.snapshot h part (snapshotOfBytes part (snapshotBytes b))) = _
    rw [snapshotOfBytes_snapshotBytes part b hl]

theorem readBack_message (h : Head) (ack : Bool) (st : BitVec 2) (bytes : List Byte) (h1 : 1 ≤ bytes.length)
    (h128 : bytes.length ≤ 128) : ReadBack (.message h ack st (.good bytes)) := by
  refine ⟨_, _, _, _, _, _, rfl, ?_, ?_, ?_⟩
  · show admits 0x0C bytes.length _ 0 = true
    simp [admits, h1, h128]
  · show bytes.length < 1024
    omega
  · show some (Packet.message h (BitVec.getLsbD _ 7) ((st.setWidth 8).setWidth 2) (.good bytes)) = _
    rw [ack_bit, BitVec.setWidth_setWidth_of_le _ (by decide), BitVec.setWidth_eq]

theorem readBack_write (h : Head) (i : Byte) (v : Value) : ReadBack (.write h i v none) := by
  refine ⟨_, _, _, _, _, _, rfl, rfl, (by decide : 0 < 1024), ?_⟩
  show some (Packet.write h i (valueOfBytes _ _ _ _) none) = _
  rw [Laws.valueOfBytes_byteAt]

theorem readBack_readReturn (h : Head) (start count : Byte) (vs : List Value) (h1 : 1 ≤ vs.length) (h16 : vs.length ≤ 16)
    (hc : vs.length = count.toNat) : ReadBack (.readReturn h start count (.good vs)) := by
  have hn : (Packet.readReturn h start count (.good vs)).payload.length = 4 * vs.length := Laws.length_flatMap_bytesOfValue vs
  refine ⟨_, _, _, _, _, _, rfl, ?_, by rw [hn]; omega, ?_⟩
  · rw [hn]
    show admits 0x0F (4 * vs.length) start count = true
    simp [admits, hc, hc ▸ h1, hc ▸ h16]
  · show some (Packet.readReturn h start count (.good (wordsOfBytes (vs.flatMap bytesOfValue)))) = _
    rw [Laws.wordsOfBytes_flatMap]

theorem readBack_ack (h : Head) (r : AckResult) (c : Bool) (hr : r ≠ .other) : ReadBack (.ack h r c none) := by
  refine ⟨_, _, _, _, _, _, rfl, rfl, (by decide : 0 < 1024), ?_⟩
  show some (Packet.ack h (resultOfByte (resultByte r)) ((flagByte c).getLsbD 0) none) = _
  rw [resultOfByte_resultByte hr, flagByte_bit]

theorem Payload.good_of_isGood {α : Type} {p : Payload α} (h : p.isGood = true) : ∃ a, p = .good a := by
  cases p with
  | good a => exact ⟨a, rfl⟩
  | failed f => cases h

theorem Payload.lateFlaw_of_isGood {α : Type} {p : Payload α} (h : p.isGood = true) : p.lateFlaw = false := by
  obtain ⟨a, rfl⟩ := Payload.good_of_isGood h
  rfl

/-- A packet with no class is read back. -/
theorem readBack_of_flawless (k : Packet) (hw : k.wellFormed = true) (hf : k.flawless = true) : ReadBack k := by
  have short : ∀ {f : Option Flaw}, f.isNone = true → f = none := Option.isNone_iff_eq_none.1
  cases k with
  | handover h a v f => cases short hf; exact readBack_handover h a v
  | claim h f => cases short hf; exact readBack_plain rfl rfl rfl rfl
  | invite h f => cases short hf; exact readBack_plain rfl rfl rfl rfl
  | join h p f => cases short hf; exact readBack_join h p
  | leave h f => cases short hf; exact readBack_plain rfl rfl rfl rfl
  | status h p => obtain ⟨b, rfl⟩ := Payload.good_of_isGood hf; exact readBack_status h b
  | commit h p => obtain ⟨b, rfl⟩ := Payload.good_of_isGood hf; exact readBack_commit h b
  | palette h p =>
    obtain ⟨r, rfl⟩ := Payload.good_of_isGood hf
    simp only [Packet.wellFormed, Payload.recordOk, Bool.and_eq_true, decide_eq_true_eq] at hw
    exact readBack_palette h r hw.1 hw.2
  | snapshotRequest h f => cases short hf; exact readBack_plain rfl rfl rfl rfl
  | snapshot h part p =>
    obtain ⟨b, rfl⟩ := Payload.good_of_isGood hf
    simp only [Packet.wellFormed, Payload.snapshotOk, Bool.and_eq_true, decide_eq_true_eq, beq_iff_eq] at hw
    obtain ⟨⟨hp, he⟩, hl⟩ := hw
    exact readBack_snapshot h part b hp he hl
  | replay h p =>
    obtain ⟨r, rfl⟩ := Payload.good_of_isGood hf
    simp only [Packet.wellFormed, Payload.recordOk, Bool.and_eq_true, decide_eq_true_eq] at hw
    exact readBack_replay h r hw.1 hw.2
  | message h ack st p =>
    obtain ⟨bytes, rfl⟩ := Payload.good_of_isGood hf
    simp only [Packet.wellFormed, Payload.messageOk, Bool.and_eq_true, decide_eq_true_eq] at hw
    exact readBack_message h ack st bytes hw.1 hw.2
  | read h start count f => cases short hf; exact readBack_plain rfl rfl rfl rfl
  | write h i v f => cases short hf; exact readBack_write h i v
  | readReturn h start count p =>
    obtain ⟨vs, rfl⟩ := Payload.good_of_isGood hf
    simp only [Packet.wellFormed, Payload.returnOk, Bool.and_eq_true, decide_eq_true_eq] at hw
    obtain ⟨⟨h1, h16⟩, hc⟩ := hw
    exact readBack_readReturn h start count vs h1 h16 hc
  | ack h r c f =>
    simp only [Packet.flawless, Bool.and_eq_true, decide_eq_true_eq] at hf
    obtain ⟨hn, hr⟩ := hf
    cases short hn
    exact readBack_ack h r c hr

/-- A packet with no class is no packet judged in error. -/
theorem judgedInError_of_flawless (k : Packet) (hf : k.flawless = true) : k.judgedInError = false := by
  have short : ∀ {f : Option Flaw}, f.isNone = true → f.isSome = false := fun h => by rw [Option.isNone_iff_eq_none.1 h]; rfl
  cases k with
  | handover => exact short hf
  | claim => exact short hf
  | invite => exact short hf
  | join => exact short hf
  | leave => exact short hf
  | status => exact Payload.lateFlaw_of_isGood hf
  | commit => exact Payload.lateFlaw_of_isGood hf
  | palette => exact Payload.lateFlaw_of_isGood hf
  | snapshotRequest => exact short hf
  | snapshot => exact Payload.lateFlaw_of_isGood hf
  | replay => exact Payload.lateFlaw_of_isGood hf
  | message => exact Payload.lateFlaw_of_isGood hf
  | read => exact short hf
  | write => exact short hf
  | readReturn => exact Payload.lateFlaw_of_isGood hf
  | ack =>
    simp only [Packet.flawless, Bool.and_eq_true] at hf
    exact short hf.1

/-- Settles O55: the cells are judged by the header and the payload sent, and each kind is read back from them. -/
theorem packetsSurviveTheLine : Obligations.PacketsSurviveTheLine := by
  intro k hk
  simp only [Packet.sendable, Bool.and_eq_true, Bool.not_eq_true'] at hk
  obtain ⟨⟨hw, hf⟩, hc⟩ := hk
  obtain ⟨a, b, c, x, y, z, harg, hadm, hlen, hof⟩ := readBack_of_flawless k hw hf
  have hj : judge k.cells = .readable k := (judge_cells k).trans (judgeHeader_sent k harg hadm hlen hc hof)
  refine ⟨hj, ?_⟩
  rw [lineRows, hj]
  exact if_neg (by rw [judgedInError_of_flawless k hf]; exact Bool.false_ne_true)

end Sys2Proof
end

section
/-! PROOF. One clock period, ACKNOWLEDGE FAULT and the state after a reset: O2, O14 and O57. -/

namespace Sys2Proof.Machine

/-! ### ACKNOWLEDGE FAULT (R54) -/

/-- Settles O14: a bus hold, then a fault record, decide. -/
theorem acknowledgeFaultEndsTheHold : Obligations.AcknowledgeFaultEndsTheHold := by
  intro s hs
  refine ⟨fun hp => ?_, fun hp hf => ?_, fun hp hf => ?_⟩
  · exact exec_answered hs (if_pos hp)
  · exact exec_answered hs ((if_neg hp).trans (if_pos (Option.isSome_iff_ne_none.2 hf)))
  · exact exec_answered hs ((if_neg hp).trans (if_neg (by rw [hf]; exact Bool.false_ne_true)))

/-! ### The state after a reset (R57, R60, R75, R100, R102, R123) -/

/-- With an empty view no station needs a record, and none has one. -/
theorem recordsMatchView_empty {s : State} (hv : s.mem.view = 0) (ha : s.agr.table = []) (hp : s.pal.credits = [])
    (hm : s.msg.credits = []) : recordsMatchView s = true :=
  (recordsMatchView_iff s).2 fun n => by rw [hv, ha, hp, hm, inSet_zero]; exact ⟨rfl, rfl, rfl⟩

/-- The station satisfies every invariant at the end of any power-on or pin reset. -/
theorem stationInvariant_afterReset (number : Station) (level : Bool) (free : Nat) (pending : List Instr) :
    stationInvariant (State.afterReset number level free pending) = true := by
  have hr : recordsMatchView (State.afterReset number level free pending) = true := recordsMatchView_empty rfl rfl rfl rfl
  rw [stationInvariant, hr]
  rfl

/-- Settles O57: State.reset is the end of one such reset. -/
theorem resetSatisfiesTheInvariants : Obligations.ResetSatisfiesTheInvariants :=
  stationInvariant_afterReset 0 false 0 []

/-! ### One clock period (log 1, log 24) -/

/-- One entry of the running application is written in a period, but for its last (R174). -/
theorem Application.pace_take (a : Application) :
    a.writes.take a.pace = (if 2 ≤ a.writes.length then a.writes.take 1 else []) ∧
    { a with writes := a.writes.drop a.pace } = if 2 ≤ a.writes.length then { a with writes := a.writes.drop 1 } else a := by
  by_cases h : 2 ≤ a.writes.length
  · have hp : a.pace = 1 := if_neg (by omega)
    rw [hp, if_pos h, if_pos h]
    exact ⟨rfl, rfl⟩
  · have hp : a.pace = 0 := if_pos (by omega)
    rw [hp, if_neg h, if_neg h]
    exact ⟨rfl, rfl⟩

/-- The PAL after one clock period, its two writers and its wait timer together. -/
theorem Pal.tick_eq (p : Pal) : p.tick = { p with
    wait := p.wait.map (fun n => min Config.snapshotWait (n + 1))
    bank := (p.bank.writeAll (p.installing.take 1)).writeAll (match p.applications with
      | [] => []
      | a :: _ => if 2 ≤ a.writes.length then a.writes.take 1 else [])
    installing := p.installing.drop 1
    applications := match p.applications with
      | [] => []
      | a :: rest => (if 2 ≤ a.writes.length then { a with writes := a.writes.drop 1 } else a) :: rest } := by
  unfold Pal.tick
  cases hp : p.applications with
  | nil => rfl
  | cons a rest =>
    obtain ⟨ht, hd⟩ := a.pace_take
    simp only [ht, hd]
    rfl

/-- A request's timer counts in AWAITING RETURN alone (R132). -/
theorem Request.tick_eq (r : Request) : r.tick = { r with state := match r.state with
    | .awaitingReturn n => .awaitingReturn (min Config.requestTimeout (n + 1))
    | other => other } := by
  obtain ⟨tag, kind, target, attempts, state, corrected⟩ := r
  cases state <;> rfl

/-- The silence timer counts while the line is quiet (R34). -/
theorem silenceCounts_iff (s : State) : silenceCounts s = true ↔
    s.lif.receiver ≠ .off ∧ s.lif.lineBusy = false ∧ s.startup.life ≠ .halted := by
  simp only [silenceCounts, Bool.and_eq_true, bne_iff_ne, Bool.not_eq_true', and_assoc]

/-- Settles O2: `tick`, unit by unit. -/
theorem idleStepIsOneClockPeriod : Obligations.IdleStepIsOneClockPeriod := by
  intro s hp
  have hstep : step s = .next (tick s) := by rw [step, hp]
  refine ⟨fun hr => by rw [hstep, tick, if_pos hr], fun hr => ⟨tick s, hstep, ?_⟩⟩
  have ht : tick s = { s with
      pos := s.pos.tick (silenceCounts s) s.number
      lif := { s.lif with released := Timer.tick Config.guard s.lif.released }
      pal := s.pal.tick, att := { s.att with requests := s.att.requests.map Request.tick }
      frame := s.frame.tick
      outputs := { s.outputs with present := Timer.tick Config.frameConfirm s.outputs.present } } :=
    if_neg (by rw [hr]; exact Bool.false_ne_true)
  rw [ht]
  refine ⟨rfl, rfl, rfl, rfl, rfl, rfl, hp, rfl, rfl, rfl, rfl, ?_, rfl, rfl, rfl, rfl, Pal.tick_eq s.pal, ?_, rfl, rfl⟩
  · simp only [← silenceCounts_iff]
    rfl
  · exact congrArg (fun f => { s.att with requests := s.att.requests.map f }) (funext Request.tick_eq)

end Sys2Proof.Machine
end

section
/-! PROOF. The ends of the silences and of the hold and wait timers, and the packets that seek a reply: O28 and O50. -/

namespace Sys2Proof.Machine

/-! ### The ends of the silences, of the bus-hold interval and of the snapshot wait (R35, R36, R53, R69, R115) -/

/-- The view of a founder has one member. -/
theorem members_single (n : Station) : members (single n) = [n] := by
  revert n
  decide

theorem Table.ofSet_single {α : Type} (n : Station) (a : α) : Table.ofSet (single n) a = [(n.val, a)] := by
  rw [Table.ofSet, members_single]; rfl

/-- R69: what each unit of a founder holds. -/
theorem found_eq (s : State) (c : ConfigRecord) (hc : s.startup.config = some c) : found s = { s with
    startup := { s.startup with life := .member }
    mem := { view := single s.number, cursor := s.number, joinPending := false }
    agr := { Agr.reset with
      table := [(s.number.val, unheard none)], known := true, agreement := if c.participant then .inStep else .outside }
    pal := { s.pal.leave with credits := [(s.number.val, 0)], state := .normal }
    att := s.att.enter
    msg := { Msg.reset with
      inbound := s.msg.inbound, tagCounter := s.msg.tagCounter, credits := [(s.number.val, 0)] }
    cpe := { s.cpe with events := pushEvent s.cpe.events ⟨.joined, some s.number, none, none, some .founded, none, false⟩ } } := by
  have hg : s.cfg = c := by rw [State.cfg, hc]; rfl
  rw [found, enterView_eq, hg, Agr.enter, Pal.enter, Msg.enter, Table.ofSet_single, Table.ofSet_single]
  rfl

/-- R35: the claim delay acts in a LISTENING station of the view alone. -/
theorem exec_claimDelayExpiry {s : State} (hr : s.inReset = false) : exec .claimDelayExpiry s =
    .next (if s.inView = true ∧ s.pos.state = .listening then claimPossession s else s) := by
  show execClaimDelayExpiry s = _
  simp only [execClaimDelayExpiry, hr, Bool.not_false, Bool.true_and, Bool.and_eq_true, beq_iff_eq]

/-- R36: the founding silence acts in a LISTENING station in JOIN PENDING alone. -/
theorem exec_foundingSilenceExpiry {s : State} (hr : s.inReset = false) : exec .foundingSilenceExpiry s =
    .next (if s.startup.life = .joinPending ∧ s.pos.state = .listening then claimPossession (found s) else s) := by
  show execFoundingSilenceExpiry s = _
  simp only [execFoundingSilenceExpiry, hr, Bool.not_false, Bool.true_and, Bool.and_eq_true, beq_iff_eq]

/-- R53: the interval ends a bus hold whose timer runs. -/
theorem exec_busHoldIntervalExpiry {s : State} (hr : s.inReset = false) : exec .busHoldIntervalExpiry s =
    .next (if s.pos.state = .busHold ∧ s.pos.hold ≠ none then s.onPos Pos.endHold else s) := by
  show execBusHoldIntervalExpiry s = _
  simp only [execBusHoldIntervalExpiry, hr, Bool.not_false, Bool.true_and, Bool.and_eq_true, beq_iff_eq,
    Option.isSome_iff_ne_none]

/-- R115: the snapshot wait ends the request while it runs. -/
theorem exec_snapshotWaitExpiry {s : State} (hr : s.inReset = false) : exec .snapshotWaitExpiry s =
    .next (if s.pal.wait ≠ none then s.onPal Pal.endRequest else s) := by
  show execSnapshotWaitExpiry s = _
  simp only [execSnapshotWaitExpiry, hr, Bool.not_false, Bool.true_and, Option.isSome_iff_ne_none]

/-- Whether a possession begins in LEAVING, in the terms of the statements. -/
theorem life_beq_leaving (s : State) : (s.startup.life == .leaving) = decide (s.startup.life = .leaving) := by
  rw [Bool.eq_iff_iff, beq_iff_eq, decide_eq_true_iff]

/-- Settles O50: each row by the state in which its timer runs. -/
theorem silencesAndTimersEnd : Obligations.SilencesAndTimersEnd := by
  intro s hr claimed claim
  rw [exec_claimDelayExpiry hr, exec_foundingSilenceExpiry hr, exec_busHoldIntervalExpiry hr, exec_snapshotWaitExpiry hr]
  refine ⟨fun hv hp => ?_, fun c hl hp hc => ?_, fun hp hh => ?_, fun hw => ?_, fun hn => ?_, fun hn => ?_, fun hn => ?_,
    fun hn => ?_⟩
  · rw [if_pos ⟨hv, hp⟩]
    simp only [claimed, ← life_beq_leaving]
    rfl
  · rw [if_pos ⟨hl, hp⟩, found_eq s c hc]
    rfl
  · rw [if_pos ⟨hp, hh⟩]
    rfl
  · rw [if_pos hw]
    rfl
  · rw [if_neg]
    rintro ⟨hv, hp⟩
    rcases hn with hn | hn
    · rw [hv] at hn; cases hn
    · exact hn hp
  · rw [if_neg]
    rintro ⟨hl, hp⟩
    rcases hn with hn | hn
    · exact hn hl
    · exact hn hp
  · rw [if_neg]
    rintro ⟨hp, hh⟩
    rcases hn with hn | hn
    · exact hn hp
    · exact hh hn
  · rw [if_neg (not_not.2 hn)]

/-! ### Packets that seek a reply (R42, R65, R114, R131, R144 to R146) -/

section
variable {h : Head} {d : Station} (hd : h.dest = .station d) (u : State)
include hd

theorem inviteSent_eq : inviteSent h u = openSlot d 0 .invite { u with
    mem := { u.mem with cursor := d }, pos := { u.pos with batch := { u.pos.batch with inviteSent := true } } } := by
  rw [inviteSent, hd]; rfl

theorem snapshotRequestSent_eq : snapshotRequestSent h u = openSlot d h.tag .snapshotRequest { u with
    pal := { u.pal with candidate := some d, requestTag := h.tag }
    pos := { u.pos with batch := { u.pos.batch with snapshotAsked := true } } } := by
  rw [snapshotRequestSent, hd]; rfl

theorem requestSent_eq : requestSent h u = openSlot d h.tag (.request h.tag) { u with
    att := u.att.update h.tag (fun r => { r with attempts := r.attempts + 1 })
    pos := { u.pos with batch := { u.pos.batch with requestsSent := u.pos.batch.requestsSent ++ [h.tag] } } } := by
  rw [requestSent, hd]; rfl

/-- A directed MESSAGE packet that seeks a reply: its sender's credits fall and its record waits in the slot. -/
theorem messageSent_waits {take : Msg → Msg × List EventRecord} {g : Msg}
    (ht : take { u.msg with credits := lowerFor u.msg.credits h.source (.station d) } = (g, [])) :
    messageSent h true take u = openSlot d h.tag .message { u with msg := g } := by
  have hv : lowerMessageCredits h u = { u with
      msg := { u.msg with credits := lowerFor u.msg.credits h.source (.station d) } } := by
    rw [lowerMessageCredits, hd]; rfl
  unfold messageSent
  simp only [hv, hd, ht]
  rfl

end

/-- R145: the head of a class queue that seeks a reply is held, one attempt more made. -/
theorem Msg.sentHead_held {g : Msg} {m : OutMessage} {rest : List OutMessage} (hm : m.ack = true) :
    (g.priority = m :: rest → g.sentPriority = ({ g with priority := rest, held := some m.sentOnce }, [])) ∧
    (g.bulk = m :: rest → g.sentBulk = ({ g with bulk := rest, held := some m.sentOnce }, [])) := by
  refine ⟨fun hq => ?_, fun hq => ?_⟩
  · simp only [Msg.sentPriority, hq]
    exact if_pos hm
  · simp only [Msg.sentBulk, hq]
    exact if_pos hm

/-- Settles O28: what each class does when its packet is sent, ending in `openSlot`. -/
theorem slotPacketsOpenASlot : Obligations.SlotPacketsOpenASlot := by
  intro s tx d hr hdr hd u tag opened
  have hx : exec .packetSent s = .next (afterSent tx.cls tx.packet u) := exec_packetSent hr hdr
  have hmsg : u.msg = s.msg := by rw [show u = _ from sentBy_eq tx s]
  clear_value u
  refine ⟨fun hc => ?_, fun hc => ?_, fun hc => ?_, fun hc => ?_, fun h st p m rest hk hm => ?_⟩
  · rw [hx, hc]
    exact congrArg Host.Outcome.next (inviteSent_eq hd u)
  · rw [hx, hc]
    exact congrArg Host.Outcome.next (snapshotRequestSent_eq hd u)
  · rw [hx, hc]
    exact congrArg Host.Outcome.next (requestSent_eq hd u)
  · rw [hx, hc]
    exact congrArg Host.Outcome.next (messageSent_waits (take := fun g => (g.sentRetry, [])) hd u rfl)
  · have hdest : h.dest = .station d := by rw [hk] at hd; exact hd
    have htag : tag = h.tag := by simp only [tag, hk]; rfl
    rw [htag, hx, hk]
    refine ⟨fun hc hq => ?_, fun hc hq => ?_⟩
    · rw [hc]
      exact congrArg Host.Outcome.next (messageSent_waits hdest u ((Msg.sentHead_held hm).1 (hmsg ▸ hq)))
    · rw [hc]
      exact congrArg Host.Outcome.next (messageSent_waits hdest u ((Msg.sentHead_held hm).2 (hmsg ▸ hq)))

end Sys2Proof.Machine
end

section
/-! PROOF. The replies of a LISTENING station, the JOIN packet in its inviter's slot and the slot of a message: O37, O43, O44 and O46. -/

namespace Sys2Proof.Machine

/-! ### Replies (R27, R44, R66) -/

/-- Hearing a packet leaves a station's number, its life-cycle state and its possession state. -/
theorem heardBy_keeps (k : Packet) (s : State) : (heardBy k s).number = s.number ∧ (heardBy k s).startup = s.startup ∧
    (heardBy k s).pos.state = s.pos.state := by
  rw [heardBy_eq]; exact ⟨rfl, rfl, rfl⟩

/-- R44: the packet asks this station, a LISTENING MEMBER, for its reply. -/
theorem asksForReply_heardBy (h : Head) (k : Packet) (s : State) :
    (addressed h (heardBy k s) && answersRequests (heardBy k s)) = true ↔
      h.dest = .station s.number ∧ s.startup.life = .member ∧ s.pos.state = .listening := by
  obtain ⟨hn, hu, hp⟩ := heardBy_keeps k s
  simp only [addressed, answersRequests, hn, hu, hp, Bool.and_eq_true, beq_iff_eq]

/-- R27, R44: an ACK handed to the LIF, the station REPLYING. -/
theorem replyAck_eq (h : Head) (r : AckResult) {s : State} {n : Station} (hn : s.number = n) : replyAck h r s = { s with
    pos := { s.pos with state := .replying }
    lif := { s.lif with driver := .waiting ⟨.reply, .ack ⟨n, .station h.source, h.tag, false⟩ r h.corrected none⟩ } } := by
  subst hn; rfl

/-! ### READ and WRITE packets (R135, R137) -/

/-- R135: the answer to a READ packet. -/
theorem Att.judgeRead_eq (a : Att) (start count : Byte) : a.judgeRead start count =
    if 1 ≤ count.toNat ∧ count.toNat ≤ 16 ∧ start.toNat + count.toNat ≤ 64
    then (if 4 ≤ a.returns.length then .refusedBusy else .accepted) else .refusedRange := by
  by_cases hr : 1 ≤ count.toNat ∧ count.toNat ≤ 16 ∧ start.toNat + count.toNat ≤ 64
  · have hf : runFits start.toNat count.toNat 16 64 = true := by simp [runFits, hr]
    rw [if_pos hr, Att.judgeRead, hf]
    rfl
  · have hf : runFits start.toNat count.toNat 16 64 = false := by
      rw [← Bool.not_eq_true]
      simpa [runFits, and_assoc] using hr
    rw [if_neg hr, Att.judgeRead, hf]
    rfl

/-- R135: a READ packet that asks this station is answered, and queued for its return where it is accepted. -/
theorem onRead_asked {h : Head} {s : State} (start count : Byte) {r : AckResult}
    (ha : (addressed h s && answersRequests s) = true) (hr : s.att.judgeRead start count = r) :
    onRead h start count s = replyAck h r (if r = .accepted then { s with att := { s.att with returns := s.att.returns ++
      [{ requester := h.source, tag := h.tag, start := start, count := count }] } } else s) := by
  subst hr
  rw [onRead, if_pos ha]
  by_cases hj : s.att.judgeRead start count = .accepted
  · rw [if_pos hj]
    simp only [State.onAtt, Att.hearRead, if_pos hj]
  · rw [if_neg hj]
    simp only [State.onAtt, Att.hearRead, if_neg hj]

/-- R137: a WRITE packet that asks this station is answered, and applied at once where it is accepted. -/
theorem onWrite_asked {h : Head} {s : State} (index : Byte) (value : Value) {r : AckResult}
    (ha : (addressed h s && answersRequests s) = true) (hr : judgeWrite index = r) :
    onWrite h index value s = replyAck h r (if r = .accepted then { s with
      att := s.att.write index.toNat ⟨value, .peer h.source⟩
      cpe := { s.cpe with
        events := pushEvent s.cpe.events ⟨.attributeWritten, some h.source, none, some index, none, none, false⟩ } } else s) := by
  subst hr
  rw [onWrite, if_pos ha]
  by_cases hj : judgeWrite index = .accepted
  · rw [if_pos hj]
    simp only [Att.hearWrite, hj, State.raiseAll_eq]
    rfl
  · rw [if_neg hj]
    simp only [Att.hearWrite, if_neg hj, State.raiseAll_eq]
    rfl

/-- R125, R128, R137: a record written reads as it was written, every other of 8 to 63 as before. -/
theorem readAttr_written {s t : State} {i : Nat} {r : AttrRecord} (hi : 8 ≤ i) (ht : t.att.table = (s.att.write i r).table) :
    readAttr t i = r ∧ ∀ j, 8 ≤ j → j ≠ i → readAttr t j = readAttr s j := by
  have hw : ∀ j, (Table.get? t.att.table j).getD AttrRecord.blank =
      if i = j then r else (Table.get? s.att.table j).getD AttrRecord.blank := by
    intro j
    rw [ht]
    by_cases hb : r = AttrRecord.blank
    · have he : (s.att.write i r).table = Table.erase s.att.table i := if_pos hb
      rw [he, Table.get?_erase]
      split
      · exact hb.symm
      · rfl
    · have he : (s.att.write i r).table = Table.set s.att.table i r := if_neg hb
      rw [he, Table.get?_set]
      split <;> rfl
  refine ⟨?_, fun j hj hne => ?_⟩
  · rw [readAttr, if_neg (Nat.not_lt.2 hi), hw, if_pos rfl]
  · rw [readAttr, readAttr, if_neg (Nat.not_lt.2 hj), if_neg (Nat.not_lt.2 hj), hw, if_neg hne.symm]

/-- Settles O44: `onRead` and `onWrite` over `heardBy`, by the judgement of each. -/
theorem readAndWriteOfPeersAreAnswered : Obligations.ReadAndWriteOfPeersAreAnswered := by
  intro h f s ht answer raised mine
  refine ⟨fun start count => ?_, fun index value => ?_⟩
  · intro u ask inRange
    have hask : ask = .next (onRead h start count u) := congrArg Host.Outcome.next (hear_taken (.read h start count f) _ s ht)
    have hto : (addressed h u && answersRequests u) = true ↔ mine := asksForReply_heardBy h _ s
    have hn : u.number = s.number := (heardBy_keeps _ s).1
    have hatt : u.att = s.att := by rw [show u = _ from heardBy_eq _ s]
    clear_value u ask
    have asked : mine → ∀ r, s.att.judgeRead start count = r → ask = .next (answer r (if r = .accepted
        then { u with att := { s.att with returns := s.att.returns ++
          [{ requester := h.source, tag := h.tag, start := start, count := count }] } } else u)) := by
      intro hm r hr
      rw [hask, onRead_asked start count (hto.2 hm) (hatt ▸ hr), replyAck_eq h r (n := s.number), hatt]
      split <;> exact hn
    refine ⟨fun hm => ?_, fun hm hr => ?_, fun hm hr hl => ?_, fun hm hr hl => ?_⟩
    · rw [hask, onRead, if_neg (hm ∘ hto.1)]
    · exact asked hm .refusedRange (by rw [Att.judgeRead_eq, if_neg hr])
    · exact asked hm .refusedBusy (by rw [Att.judgeRead_eq, if_pos hr, if_pos hl])
    · exact asked hm .accepted (by rw [Att.judgeRead_eq, if_pos hr, if_neg (Nat.not_le.2 hl)])
  · intro u ask
    have hask : ask = .next (onWrite h index value u) := congrArg Host.Outcome.next (hear_taken (.write h index value f) _ s ht)
    have hto : (addressed h u && answersRequests u) = true ↔ mine := asksForReply_heardBy h _ s
    have hn : u.number = s.number := (heardBy_keeps _ s).1
    have hatt : u.att = s.att := by rw [show u = _ from heardBy_eq _ s]
    have hcpe : u.cpe = s.cpe := by rw [show u = _ from heardBy_eq _ s]
    clear_value u ask
    have asked : mine → ∀ r, judgeWrite index = r → ask = .next (answer r (if r = .accepted
        then { u with
          att := s.att.write index.toNat ⟨value, .peer h.source⟩
          cpe := raised ⟨.attributeWritten, some h.source, none, some index, none, none, false⟩ } else u)) := by
      intro hm r hr
      rw [hask, onWrite_asked index value (hto.2 hm) hr, replyAck_eq h r (n := s.number), hatt, hcpe]
      split <;> exact hn
    refine ⟨fun hm => ?_, fun hm hi => ?_, fun hm hi => ?_, fun hm hlo hhi => ?_⟩
    · rw [hask, onWrite, if_neg (hm ∘ hto.1)]
    · exact asked hm .refusedReadOnly (if_pos hi)
    · exact asked hm .refusedRange ((if_neg (by omega)).trans (if_pos hi))
    · exact ⟨_, asked hm .accepted ((if_neg (by omega)).trans (if_neg (by omega))),
        fun t htab => readAttr_written (by omega) htab⟩

/-! ### INVITE and JOIN packets (R66, R67) -/

/-- R67: a JOIN packet in the slot of its INVITE: the joiner is added, and the scheduler chooses. -/
theorem resume_slotOutcome_joined {sl : Slot} (p : Bool) (u : State) (ho : sl.owner = .invite) :
    resumePossession (slotOutcome sl (.joined p) u) = choose { u with
      pos := { u.pos with state := .possessing, slot := none }
      mem := { u.mem with view := addTo sl.target u.mem.view }
      agr := { u.agr with table := Table.set u.agr.table sl.target.val (unheard (some p)) }
      pal := { u.pal with credits := Table.set u.pal.credits sl.target.val 0 }
      msg := { u.msg with credits := Table.set u.msg.credits sl.target.val 0 }
      cpe := { u.cpe with events := pushEvent u.cpe.events (addedEvent sl.target) } } := by
  simp only [slotOutcome, ho]
  rfl

/-- A record set for a station is its own, and no other station's changes. -/
theorem Table.get?_set_station {α : Type} (t : Table α) (n : Station) (a : α) :
    Table.get? (Table.set t n.val a) n.val = some a ∧
    ∀ m : Station, m ≠ n → Table.get? (Table.set t n.val a) m.val = Table.get? t m.val := by
  refine ⟨?_, fun m hm => ?_⟩
  · rw [Table.get?_set, if_pos rfl]
  · rw [Table.get?_set, if_neg fun e => hm (Fin.ext e.symm)]

/-- Settles O37: `onInvite` over `heardBy`, and the JOIN packet as the reply of its slot. -/
theorem inviteAndJoinAddAMember : Obligations.InviteAndJoinAddAMember := by
  refine ⟨?_, ?_⟩
  · intro h f s c ht hc u
    have hask : exec (.inviteHeard h f) s = .next (onInvite h u) :=
      congrArg Host.Outcome.next (hear_taken (.invite h f) _ s ht)
    obtain ⟨hnum, hst, hpos⟩ : u.number = s.number ∧ u.startup = s.startup ∧ u.pos.state = s.pos.state := heardBy_keeps _ s
    have hmem : u.mem = s.mem := by rw [show u = _ from heardBy_eq _ s]
    have hcfg : u.cfg = c := by rw [State.cfg, hst, hc]; rfl
    have hto : (addressed h u && u.mem.joinPending && u.startup.life == .joinPending && u.pos.state == .listening) = true ↔
        h.dest = .station s.number ∧ s.startup.life = .joinPending ∧ s.mem.joinPending = true ∧ s.pos.state = .listening := by
      simp only [addressed, hnum, hst, hpos, hmem, Bool.and_eq_true, beq_iff_eq]
      tauto
    clear_value u
    refine ⟨fun hd hl hj hp => ?_, fun hno => ?_⟩
    · rw [hask, onInvite, if_pos (hto.2 ⟨hd, hl, hj, hp⟩), hcfg, ← hnum]
      rfl
    · rw [hask, onInvite, if_neg (hno ∘ hto.1)]
  · intro h p f s sl hc hl hp hs ho hsrc hd hn raised u
    have hr : replyIn s.number sl (.join h p f) = some (.joined p) := if_pos ⟨ho, hsrc, hd⟩
    have hx := hear_inSlot (.join h p f) id s sl hc hl hp hs hn
    rw [hr] at hx
    have hu : u = _ := heardBy_eq (.join h p f) s
    have hcr : u.pal.credits = s.pal.credits := heardBy_credits _ s
    refine ⟨_, congrArg Host.Outcome.next (hx.trans (resume_slotOutcome_joined p u ho)), ?_⟩
    rw [← hsrc]
    obtain ⟨ht, htn⟩ := Table.get?_set_station s.agr.table h.source (unheard (some p))
    obtain ⟨hq, hqn⟩ := Table.get?_set_station s.pal.credits h.source 0
    obtain ⟨hg, hgn⟩ := Table.get?_set_station s.msg.credits h.source 0
    refine ⟨?_, ?_, fun n hne => ?_, ?_, ?_, fun n hne => ⟨?_, ?_⟩⟩
    · rw [hu]; rfl
    · rw [hu]; exact ht
    · rw [hu]; exact htn n hne
    · simp only [creditOf, hcr, hq]; rfl
    · rw [hu]; simp only [creditOf, hg]; rfl
    · simp only [creditOf, hcr, hqn n hne]
    · rw [hu]; simp only [creditOf, hgn n hne]

end Sys2Proof.Machine
end

section
/-! PROOF. A MESSAGE packet heard, and the reply slot of a message sent: O43 and O46. -/

namespace Sys2Proof.Machine

/-! ### The slot of a message (R142, R145, R146) -/

/-- A message's slot ended over a state: the message with its outcome, the sender's credit zeroed at QUEUE FULL, the next choice. -/
theorem resume_slotOutcome_message {sl : Slot} {m : OutMessage} {r : SlotResult} {retry : Option OutMessage}
    {es : List EventRecord} (s : State) (ho : sl.owner = .message)
    (hm : s.msg.held = some m ∨ s.msg.held = none ∧ s.msg.retry = some m)
    (hout : m.outcome r.corrected r.result = (retry, es)) :
    resumePossession (slotOutcome sl r s) = choose { s with
      pos := { s.pos with state := .possessing, slot := none }
      msg := { s.msg with
        held := none, retry := retry
        credits := if r.result = some .queueFull
          then s.msg.credits.map (fun e => (e.1, if e.1 = sl.target.val then 0 else e.2)) else s.msg.credits }
      cpe := { s.cpe with events := es.foldl pushEvent s.cpe.events } } := by
  rw [slotOutcome_message sl r s m ho hm, hout]
  rfl

/-- R145: a failed attempt makes the message the retry record until its third. -/
theorem OutMessage.again_eq (m : OutMessage) (why : Reason) :
    (m.attempts < 3 → m.again why = (some m, [])) ∧
    (3 ≤ m.attempts → m.again why = (none, [m.event .messageFailed (some why)])) :=
  ⟨fun h => if_pos h, fun h => if_neg (Nat.not_lt.2 h)⟩

/-- R145: NO REPLY, and any result that no message has, is a failed attempt. -/
theorem OutMessage.outcome_other (m : OutMessage) (corrected : Bool) {r : Option AckResult}
    (h : r ∉ [some .ok, some .streamClosed, some .payloadFailed, some .queueFull]) :
    m.outcome corrected r = m.again .noReply := by
  unfold OutMessage.outcome
  split
  · simp at h
  · simp at h
  · simp at h
  · simp at h
  · rfl

/-- Settles O46: both rows end the slot with `slotOutcome`, and the message's outcome is read off case by case. -/
theorem slotOutcomeForAMessage : Obligations.SlotOutcomeForAMessage := by
  intro s u sl m c outcome corrected hp hs ho hm hcase event ends again
  obtain ⟨r, hres, hout, hx, lif, pal, silence, hu⟩ : ∃ r : SlotResult, r.result = outcome ∧
      m.outcome r.corrected r.result = m.outcome corrected outcome ∧ exec c s = .next (resumePossession (slotOutcome sl r u)) ∧
      ∃ lif pal silence, u = { s with lif := lif, pos := { s.pos with silence := silence }, pal := pal } := by
    rcases hcase with ⟨rfl, rfl, rfl, hr, ha⟩ | ⟨h, a, f, rfl, rfl, rfl, hc, hl, hsrc, hd, ht, hn⟩
    · exact ⟨.noReply, rfl, rfl, exec_replyWindowEnd_quiet hr hp hs ha, _, _, _, rfl⟩
    · have hi : sl.owner ≠ .invite := by rw [ho]; exact SlotOwner.noConfusion
      exact ⟨.ack a corrected, rfl, rfl, exec_ack_inSlot a corrected f hc hl hp hs hi hsrc hd ht hn, _, _, _, heardBy_eq _ s⟩
  have outcomes : ∀ retry es, m.outcome corrected outcome = (retry, es) → ends retry es := by
    intro retry es he
    have hends := resume_slotOutcome_message u ho (by rw [hu]; exact hm) (hout.trans he)
    rw [hres] at hends
    show exec c s = _
    rw [hx, hends, hu]
  have fails : ∀ why, m.outcome corrected outcome = m.again why → again why := fun why he =>
    ⟨fun hn => outcomes _ _ (he.trans ((m.again_eq why).1 hn)), fun hn => outcomes _ _ (he.trans ((m.again_eq why).2 hn))⟩
  refine ⟨?_, ?_, ?_, ?_, fun hno => fails _ (m.outcome_other corrected hno)⟩
  · rintro rfl; exact outcomes _ _ rfl
  · rintro rfl; exact outcomes _ _ rfl
  · rintro rfl; exact fails _ rfl
  · rintro rfl; exact fails _ rfl

/-! ### A MESSAGE packet heard (R142, R148 to R150) -/

/-- R142: the credit records that a MESSAGE packet lowers. -/
theorem creditOf_lowerFor (t : Table Nat) (source : Station) (d : Dest) (n : Station) :
    creditOf (lowerFor t source d) n =
      if d = .station n ∨ d = .all ∧ n ≠ source then creditOf t n - 1 else creditOf t n := by
  have hval : ∀ a : Station, n.val = a.val ↔ n = a := fun a => Fin.ext_iff.symm
  cases d with
  | station a =>
    rw [creditOf, lowerFor, Table.get?_mapAll, creditOf]
    by_cases h : n = a
    · subst h; cases Table.get? t n.val <;> simp
    · cases Table.get? t n.val <;> simp [h, Ne.symm h, hval]
  | all =>
    rw [creditOf, lowerFor, Table.get?_mapAll, creditOf]
    by_cases h : n = source
    · cases Table.get? t n.val <;> simp [h]
    · cases Table.get? t n.val <;> simp [hval, h]

/-- R150: a repeat is directed, and carries the tag last delivered from its source. -/
theorem Msg.repeated_iff (g : Msg) (h : Head) :
    g.repeated h = true ↔ h.dest ≠ .all ∧ Table.get? g.filter h.source.val = some h.tag := by
  simp only [Msg.repeated, Bool.and_eq_true, decide_eq_true_eq, beq_iff_eq]

/-- R149: the checks that a good message passes to be delivered. -/
theorem Msg.judge_good (g : Msg) (openStreams : BitVec 4) (h : Head) (stream : BitVec 2) (payload : List Byte) :
    g.judge openStreams h stream (.good payload) =
      if openStreams.getLsbD stream.toNat = true then
        if h.dest ≠ .all ∧ Table.get? g.filter h.source.val = some h.tag then .ok
        else if 8 ≤ g.inbound.length then .queueFull else .ok
      else .streamClosed := by
  simp only [Msg.judge, Msg.repeated_iff, inboundCapacity]
  cases openStreams.getLsbD stream.toNat <;> rfl

/-- A good MESSAGE packet that this station takes for itself and delivers (R148 to R150). -/
def Delivers (openStreams : BitVec 4) (s : State) (h : Head) (stream : BitVec 2) : Prop :=
  (h.dest = .station s.number ∨ h.dest = .all) ∧ inSet h.source s.mem.view = true ∧
    openStreams.getLsbD stream.toNat = true ∧ ¬ (h.dest ≠ .all ∧ Table.get? s.msg.filter h.source.val = some h.tag) ∧
    s.msg.inbound.length < 8

/-- R148: addressed to this station or to ALL, from another member of the view. -/
theorem takesMessage_iff {own : Station} {view : StationSet} {h : Head} (hs : h.source ≠ own) :
    takesMessage own view h = true ↔ (h.dest = .station own ∨ h.dest = .all) ∧ inSet h.source view = true := by
  simp only [takesMessage, Bool.and_eq_true, Bool.or_eq_true, beq_iff_eq, bne_iff_ne]
  exact and_congr_left fun _ => and_iff_left hs

/-- R149: a good message that is to be delivered is, and nothing else. -/
theorem deliverMessage_good {h : Head} {stream : BitVec 2} (payload : List Byte) {s : State} (hs : h.source ≠ s.number) :
    (Delivers s.cfg.openStreams s h stream → deliverMessage h stream (.good payload) s = { s with
      msg := (s.msg.deliver h stream payload).1
      cpe := { s.cpe with events := (s.msg.deliver h stream payload).2.foldl pushEvent s.cpe.events } }) ∧
    (¬ Delivers s.cfg.openStreams s h stream → deliverMessage h stream (.good payload) s = s) := by
  have hg : s.msg.judge s.cfg.openStreams h stream (.good payload) = .ok ∧ (!s.msg.repeated h) = true ↔
      s.cfg.openStreams.getLsbD stream.toNat = true ∧
        ¬ (h.dest ≠ .all ∧ Table.get? s.msg.filter h.source.val = some h.tag) ∧ s.msg.inbound.length < 8 := by
    rw [Msg.judge_good, Bool.not_eq_true', ← Bool.not_eq_true, Msg.repeated_iff]
    by_cases ho : s.cfg.openStreams.getLsbD stream.toNat = true
    · by_cases hp : h.dest ≠ .all ∧ Table.get? s.msg.filter h.source.val = some h.tag
      · exact ⟨fun hx => absurd hp hx.2, fun hx => absurd hp hx.2.1⟩
      · by_cases hf : 8 ≤ s.msg.inbound.length
        · simp only [ho, if_true, if_neg hp, if_pos hf, Nat.not_lt.2 hf, and_false, reduceCtorEq, false_and]
        · simp only [ho, if_true, if_neg hp, if_neg hf, Nat.not_le.1 hf, and_true, true_and]
    · simp only [ho, if_false, reduceCtorEq, false_and, Bool.false_eq_true]
  have hd : Delivers s.cfg.openStreams s h stream ↔ takesMessage s.number s.mem.view h = true ∧
      (s.msg.judge s.cfg.openStreams h stream (.good payload) = .ok ∧ (!s.msg.repeated h) = true) := by
    rw [takesMessage_iff hs, hg, Delivers, and_assoc]
  refine ⟨fun h1 => ?_, fun h1 => ?_⟩
  · obtain ⟨h2, h3⟩ := hd.1 h1
    rw [deliverMessage, if_pos h2, Msg.receive, if_pos h3, State.raiseAll_eq]
    rfl
  · rw [deliverMessage]
    split
    · rename_i h2
      rw [Msg.receive, if_neg (fun h3 => h1 (hd.2 ⟨h2, h3⟩))]
      rfl
    · rfl

/-- The event of a message delivered (R149, R155). -/
def arrivedEvent (h : Head) : EventRecord :=
  ⟨.messageArrived, some h.source, none, some h.tag, if h.dest = .all then some .broadcast else none, none, false⟩

/-- R142, R149: the sender's and the destinations' credits, then the delivery, at a station of the view. -/
theorem deliverMessage_lowered {h : Head} {stream : BitVec 2} (p : Payload (List Byte)) {u : State} (hs : h.source ≠ u.number) :
    ∃ (g : Msg) (cpe : Cpe), deliverMessage h stream p (lowerMessageCredits h u) = { u with msg := g, cpe := cpe } ∧
      g.credits = lowerFor u.msg.credits h.source h.dest ∧
      ((∀ payload, ¬ (p = .good payload ∧ Delivers u.cfg.openStreams u h stream)) →
        g = { u.msg with credits := g.credits } ∧ cpe = u.cpe) ∧
      ∀ payload, p = .good payload ∧ Delivers u.cfg.openStreams u h stream →
        g = { u.msg with
          credits := g.credits, filter := g.filter
          inbound := u.msg.inbound ++
            [{ source := h.source, stream := stream, broadcast := decide (h.dest = .all), payload := payload }] } ∧
        g.filter = (if h.dest = .all then u.msg.filter else Table.set u.msg.filter h.source.val h.tag) ∧
        cpe = { u.cpe with events := pushEvent u.cpe.events (arrivedEvent h) } := by
  cases p with
  | failed f =>
    refine ⟨{ u.msg with credits := lowerFor u.msg.credits h.source h.dest }, u.cpe, ?_, rfl, fun _ => ⟨rfl, rfl⟩, fun _ hp =>
      nomatch hp.1⟩
    unfold deliverMessage
    split <;> rfl
  | good payload =>
    obtain ⟨hyes, hno⟩ := deliverMessage_good (stream := stream) payload (s := lowerMessageCredits h u) hs
    by_cases hd : Delivers u.cfg.openStreams u h stream
    · refine ⟨_, _, hyes hd, rfl, fun hn => absurd ⟨rfl, hd⟩ (hn payload), fun q hq => ?_⟩
      obtain rfl : payload = q := Payload.good.inj hq.1
      refine ⟨rfl, ?_, ?_⟩
      · simp only [Msg.deliver, decide_eq_true_eq]; rfl
      · simp only [Msg.deliver, decide_eq_true_eq]; rfl
    · exact ⟨_, _, hno hd, rfl, fun _ => ⟨rfl, rfl⟩, fun _ hq => absurd hq.2 hd⟩

/-- R148, R149: the reply to a directed MESSAGE packet that asks for one: REFUSED STATE to a station outside the view, else the outcome
of the checks. -/
theorem messageResult_eq (h : Head) (stream : BitVec 2) (p : Payload (List Byte)) (s : State) : messageResult h stream p s =
    if inSet h.source s.mem.view = true then s.msg.judge s.cfg.openStreams h stream p else .refusedState := rfl

/-- R44, R149: a MESSAGE packet at a station of the view: the delivery, and the reply where one is asked for. -/
theorem onMessage_eq {h : Head} {ack : Bool} {stream : BitVec 2} {p : Payload (List Byte)} {u : State} {g : Msg} {cpe : Cpe}
    (hv : u.inView = true) (hw : deliverMessage h stream p (lowerMessageCredits h u) = { u with msg := g, cpe := cpe }) :
    let asked := (addressed h u && ack && answersRequests u) = true
    ∃ lif pos, onMessage h ack stream p u = { u with lif := lif, pos := pos, msg := g, cpe := cpe } ∧
      (¬ asked → lif = u.lif ∧ pos = u.pos) ∧
      (asked → pos = { u.pos with state := .replying } ∧ lif = { u.lif with driver := .waiting ⟨.reply,
        .ack ⟨u.number, .station h.source, h.tag, false⟩ (messageResult h stream p u) h.corrected none⟩ }) := by
  intro asked
  rw [onMessage, if_pos hv, hw]
  by_cases ha : asked
  · exact ⟨_, _, if_pos ha, fun hna => absurd ha hna, fun _ => ⟨rfl, rfl⟩⟩
  · exact ⟨_, _, if_neg ha, fun _ => ⟨rfl, rfl⟩, fun ha' => absurd ha' ha⟩

/-- Settles O43: `onMessage` over `heardBy`: the delivery, then the reply. -/
theorem messageIsDeliveredAndAnswered : Obligations.MessageIsDeliveredAndAnswered := by
  refine ⟨fun h ack stream p s ht hv => ?_, ?_⟩
  · have hx := hear_taken (.message h ack stream p) (onMessage h ack stream p) s ht
    have hi : (heardBy (.message h ack stream p) s).inView = false := by rw [heardBy_eq]; exact hv
    rw [onMessage, hi] at hx
    exact congrArg Host.Outcome.next hx
  · intro h ack stream p s c ht hv hc u isOpen raised isRepeat delivered answered answer
    have hask : exec (.messageHeard h ack stream p) s = .next (onMessage h ack stream p u) :=
      congrArg Host.Outcome.next (hear_taken (.message h ack stream p) _ s ht)
    have hs : h.source ≠ s.number := by
      simp only [takesPacket, Bool.and_eq_true, bne_iff_ne] at ht
      exact ht.2
    have hto : (addressed h u && ack && answersRequests u) = true ↔ answered := by
      have ha := asksForReply_heardBy h (.message h ack stream p) s
      simp only [Bool.and_eq_true] at ha ⊢
      rw [and_right_comm, ha]
      tauto
    obtain ⟨lif, pal, hu⟩ : ∃ lif pal, u = { s with lif := lif, pos := { s.pos with silence := 0 }, pal := pal } :=
      ⟨_, _, heardBy_eq _ s⟩
    have hcfg : u.cfg = c := by rw [hu, State.cfg]; simp only [hc]; rfl
    have hdel : ∀ payload, delivered payload ↔ p = .good payload ∧ Delivers u.cfg.openStreams u h stream := by
      intro payload; rw [hcfg, hu]; exact Iff.rfl
    obtain ⟨g, cpe, hw, hcr, hno, hyes⟩ := deliverMessage_lowered (stream := stream) p (u := u) (by rw [hu]; exact hs)
    obtain ⟨lif', pos', ht, hquiet, hreply⟩ := onMessage_eq (ack := ack) (u := u) (by rw [hu]; exact hv) hw
    have hn : u.number = s.number := by rw [hu]; rfl
    rw [hto] at hquiet hreply
    rw [hn] at hreply
    have hres : messageResult h stream p u =
        if inSet h.source s.mem.view = true then s.msg.judge c.openStreams h stream p else .refusedState := by
      rw [messageResult_eq, hcfg, hu]
    have hgu : u.msg = s.msg ∧ u.cpe = s.cpe := by rw [hu]; exact ⟨rfl, rfl⟩
    rw [hgu.1, hgu.2] at hno hyes
    rw [hgu.1] at hcr
    clear hu hn hcfg hw hv
    refine ⟨_, hask, by rw [ht], fun n => ?_, fun hnd => ?_, fun payload hd => ?_, fun hna => ?_, fun ha => ?_⟩
    · rw [ht]
      exact (congrArg (creditOf · n) hcr).trans (creditOf_lowerFor _ _ _ n)
    · rw [ht]
      exact hno fun payload => (hnd payload) ∘ (hdel payload).2
    · rw [ht]
      obtain ⟨hg, hf, he⟩ := hyes payload ((hdel payload).1 hd)
      refine ⟨hg, fun hall => hf.trans (if_pos hall), fun hdir => ?_, he⟩
      rw [if_neg hdir] at hf
      refine ⟨?_, fun n hne => ?_⟩
      · simp only [hf, Table.get?_set, if_pos]
      · simp only [hf, Table.get?_set, if_neg hne.symm]
    · rw [ht]
      exact hquiet hna
    · rw [ht]
      obtain ⟨hpos, hlif⟩ := hreply ha
      have answers : ∀ r, messageResult h stream p u = r →
          answer { u with lif := lif', pos := pos', msg := g, cpe := cpe } r := by
        rintro r rfl; rw [hlif]
      refine ⟨hpos, by rw [hlif], fun hout => answers _ ?_, fun hin => ⟨fun f hf => answers _ ?_, fun payload hp =>
        ⟨fun ho => answers _ ?_, fun ho hr => answers _ ?_, fun ho hr hfull => answers _ ?_, fun ho hr hroom => answers _ ?_⟩⟩⟩
      · rw [hres, hout]; rfl
      · rw [hres, if_pos hin, hf]; rfl
      · rw [hres, if_pos hin, hp, Msg.judge_good, if_neg ho]
      · rw [hres, if_pos hin, hp, Msg.judge_good, if_pos ho, if_pos hr]
      · rw [hres, if_pos hin, hp, Msg.judge_good, if_pos ho, if_neg hr, if_pos hfull]
      · rw [hres, if_pos hin, hp, Msg.judge_good, if_pos ho, if_neg hr, if_neg (Nat.not_le.2 hroom)]

end Sys2Proof.Machine
end

section
/-! PROOF. The first packets of a possession, the successor of a station, a possession begun by a HANDOVER packet, and the end of a
turnaround window: O36 and O49. -/

namespace Sys2Proof.Machine

/-! ### The least station of a set, and the successor (R45, R58) -/

/-- In an ascending list the first station that passes a test is the least that does. -/
theorem find?_eq_some_of_ascending {l : List Station} (hl : l.Pairwise (· < ·)) (p : Station → Bool) (n : Station) :
    l.find? p = some n ↔ n ∈ l ∧ p n = true ∧ ∀ m ∈ l, p m = true → n ≤ m := by
  induction l with
  | nil => simp
  | cons a l ih =>
    obtain ⟨ha, hl⟩ := List.pairwise_cons.1 hl
    by_cases hp : p a = true
    · rw [List.find?_cons_of_pos hp, Option.some.injEq]
      constructor
      · rintro rfl
        refine ⟨List.mem_cons_self, hp, fun m hm _ => ?_⟩
        rcases List.mem_cons.1 hm with rfl | hm
        · exact le_refl _
        · exact (ha m hm).le
      · rintro ⟨hm, _, hle⟩
        rcases List.mem_cons.1 hm with rfl | hm
        · rfl
        · exact absurd (hle a List.mem_cons_self hp) (not_le.2 (ha n hm))
    · rw [List.find?_cons_of_neg hp, ih hl]
      constructor
      · rintro ⟨hn, hpn, hle⟩
        refine ⟨List.mem_cons_of_mem _ hn, hpn, fun m hm hpm => ?_⟩
        rcases List.mem_cons.1 hm with rfl | hm
        · exact absurd hpm hp
        · exact hle m hm hpm
      · rintro ⟨hn, hpn, hle⟩
        rcases List.mem_cons.1 hn with rfl | hn
        · exact absurd hpn hp
        · exact ⟨hn, hpn, fun m hm => hle m (List.mem_cons_of_mem _ hm)⟩

theorem stations_ascending : stations.Pairwise (· < ·) := List.pairwise_lt_finRange 32

/-- The first member that passes a test is the lowest one that does. -/
theorem find?_members {v : StationSet} {p : Station → Bool} {n : Station} : (members v).find? p = some n ↔
    inSet n v = true ∧ p n = true ∧ ∀ m, inSet m v = true → p m = true → n ≤ m := by
  rw [members, find?_eq_some_of_ascending (stations_ascending.filter _), ← members]
  simp only [mem_members]

/-- The lowest member. -/
theorem head?_members {v : StationSet} {n : Station} :
    (members v).head? = some n ↔ inSet n v = true ∧ ∀ m, inSet m v = true → n ≤ m := by
  have hf : (members v).head? = (members v).find? (fun _ => true) := by
    cases members v <;> rfl
  rw [hf, find?_members]
  simp

/-- The successor is the one station that R45 describes. -/
theorem successor_eq_some {own n : Station} {v : StationSet} : successor own v = some n ↔ IsSuccessor own v n := by
  unfold successor IsSuccessor
  cases hf : (members v).find? (fun m => decide (own < m)) with
  | some a =>
    obtain ⟨ha, hlt, hle⟩ := find?_members.1 hf
    simp only [decide_eq_true_eq] at hlt hle
    simp only [Option.some.injEq]
    constructor
    · rintro rfl
      exact ⟨ha, .inl ⟨hlt, hle⟩⟩
    · rintro ⟨hn, ⟨hown, hmin⟩ | ⟨hmax, _⟩⟩
      · exact le_antisymm (hle n hn hown) (hmin a ha hlt)
      · exact absurd hlt (not_lt.2 (hmax a ha))
  | none =>
    have hmax : ∀ m, inSet m v = true → m ≤ own := by
      intro m hm
      have := List.find?_eq_none.1 hf m (mem_members.2 hm)
      simpa using this
    simp only [head?_members]
    constructor
    · rintro ⟨hn, hle⟩
      exact ⟨hn, .inr ⟨hmax, hle⟩⟩
    · rintro ⟨hn, ⟨hown, _⟩ | ⟨_, hle⟩⟩
      · exact absurd hown (not_lt.2 (hmax n hn))
      · exact ⟨hn, hle⟩

/-- A view with a member names a successor. -/
theorem exists_successor {own m : Station} {v : StationSet} (hm : inSet m v = true) :
    ∃ n, IsSuccessor own v n ∧ successor own v = some n := by
  suffices h : successor own v ≠ none by
    obtain ⟨n, hn⟩ := Option.ne_none_iff_exists'.1 h
    exact ⟨n, successor_eq_some.1 hn, hn⟩
  unfold successor
  split
  · exact Option.some_ne_none _
  · exact fun hh => List.ne_nil_of_mem (mem_members.2 hm) (List.head?_eq_none_iff.1 hh)

/-! ### The first packets of a possession (R38, R71, R78) -/

/-- R136: the stale heads of the pending-return queue are dropped before any class is asked. -/
def freshReturns (s : State) : Att := { s.att with returns := s.att.returns.dropWhile (fun r => !inSet r.requester s.mem.view) }

theorem choose_eq (s : State) : choose s = choosePacket { s with att := freshReturns s } := rfl

section
variable {s : State}

/-- R38, R71: the first packet of a possession begun in LEAVING. -/
theorem choose_leave (hb : s.pos.batch.leaving = true) (hs : s.pos.batch.leaveSent = false) : choose s = { s with
    att := freshReturns s
    lif := { s.lif with driver := .waiting ⟨.leave, .leave ⟨s.number, .all, 0, false⟩ none⟩ } } := by
  rw [choose_eq, choosePacket, if_pos hb, chooseLeaving, if_neg (by simp only [hs]; exact Bool.false_ne_true)]
  rfl

/-- R71: the packet after it, with the view without the station. -/
theorem choose_leaveHandover {next : Station} (hb : s.pos.batch.leaving = true) (hs : s.pos.batch.leaveSent = true)
    (hn : successor s.number (removeFrom s.number s.mem.view) = some next) : choose s = { s with
    att := freshReturns s
    lif := { s.lif with driver := .waiting ⟨.leaveHandover,
      .handover ⟨s.number, .station next, 0, false⟩ .first (removeFrom s.number s.mem.view) none⟩ } } := by
  rw [choose_eq, choosePacket, if_pos hb, chooseLeaving, if_pos hs, grantLeaveHandover]
  have hd : (successor s.number (removeFrom s.number s.mem.view)).getD s.number = next := by rw [hn]; rfl
  rw [← hd]
  rfl

/-- R78: the first packet of a possession begun as a MEMBER. -/
theorem choose_status {c : ConfigRecord} (hc : s.startup.config = some c) (hb : s.pos.batch.leaving = false)
    (hg : s.pos.batch.statusGranted = false) (hl : s.startup.life ≠ .leaving) : choose s = { s with
    att := freshReturns s
    lif := { s.lif with driver := .waiting ⟨.status, .status ⟨s.number, .all, 0, false⟩ (.good (reportOf c s))⟩ }
    pos := { s.pos with batch := { s.pos.batch with statusGranted := true } } } := by
  rw [choose_eq, choosePacket, if_neg (by simp only [hb]; exact Bool.false_ne_true),
    if_neg (by simp only [hg]; exact Bool.false_ne_true), if_neg hl, ← statusBody_eq c s hc]
  rfl

/-- R45: a HANDOVER packet from the view as it stands. -/
theorem grantHandover_eq {next : Station} (hn : successor s.number s.mem.view = some next) : grantHandover s = { s with
    lif := { s.lif with driver := .waiting ⟨.handover, .handover ⟨s.number, .station next, 0, false⟩ .first s.mem.view none⟩ }
    pos := { s.pos with handover := some { attempt := .first, successor := next, view := s.mem.view } } } := by
  have hd : (successor s.number s.mem.view).getD s.number = next := by rw [hn]; rfl
  rw [← hd]
  rfl

end

/-- A possession begun: the fresh batch notes whether the station is LEAVING (R35, R37, R48). -/
theorem enterPossessing_eq (s : State) : enterPossessing s = { s with pos := { s.pos with
    state := .possessing, slot := none, handover := none, turnaround := none
    batch := { Batch.idle with leaving := decide (s.startup.life = .leaving) } } } := by
  rw [← life_beq_leaving]; rfl

/-- The first packet of a possession begun: LEAVE, or the STATUS packet with the state as it stands. -/
theorem beginPossession_eq {s : State} {c : ConfigRecord} (hc : s.startup.config = some c) : ∃ batch tx,
    beginPossession s = { s with
      lif := { s.lif with driver := .waiting tx }
      pos := { s.pos with state := .possessing, batch := batch, slot := none, handover := none, turnaround := none }
      att := freshReturns s } ∧
    batch.count = 0 ∧ batch.leaving = decide (s.startup.life = .leaving) ∧
    (s.startup.life ≠ .leaving → tx = ⟨.status, .status ⟨s.number, .all, 0, false⟩ (.good (reportOf c s))⟩) ∧
    (s.startup.life = .leaving → tx = ⟨.leave, .leave ⟨s.number, .all, 0, false⟩ none⟩) := by
  have hb : (enterPossessing s).pos.batch.leaving = decide (s.startup.life = .leaving) := by rw [enterPossessing_eq]
  rw [beginPossession]
  by_cases hl : s.startup.life = .leaving
  · rw [choose_leave (hb.trans (decide_eq_true hl)) rfl, enterPossessing_eq]
    exact ⟨_, _, rfl, rfl, rfl, fun hn => absurd hl hn, fun _ => rfl⟩
  · rw [choose_status (s := enterPossessing s) hc (hb.trans (decide_eq_false hl)) rfl hl, enterPossessing_eq]
    exact ⟨_, _, rfl, rfl, rfl, fun _ => rfl, fun h => absurd h hl⟩

/-! ### The end of a turnaround window (R47, R48, R70) -/

theorem exec_turnaroundWindowEnd {s : State} {run : HandoverRun} (hr : s.inReset = false) (hp : s.pos.state = .handingOver)
    (ht : s.pos.turnaround ≠ none) (hh : s.pos.handover = some run) :
    exec .turnaroundWindowEnd s = .next (windowEnds run s) := by
  have hw : s.pos.turnaround.isSome = true := Option.isSome_iff_ne_none.2 ht
  show execTurnaroundWindowEnd s = _
  simp [execTurnaroundWindowEnd, hh, hr, hp, hw]

/-- R70: a silent successor removed: MEMBER REMOVED before the events of the units. -/
theorem removeSilent_eq (n : Station) (s : State) : ∃ (es : List EventRecord) (k : Nat),
    let gone := single n
    let rest := unitsWithout gone s
    removeSilent n s = { s with
      mem := { s.mem with view := removeFrom n s.mem.view }
      agr := rest.1, pal := rest.2.1, att := rest.2.2.1, msg := rest.2.2.2
      cpe := { s.cpe with events := (removedEvent (some .noAnswer) n :: es).foldl pushEvent s.cpe.events }
      free := k } ∧
    IsMerge (requestsLost gone s.att) (messagesLost gone s.msg) es := by
  obtain ⟨es, k, he, hm⟩ := membersGone_eq (single n)
    ((s.setView (removeFrom n s.mem.view)).raise (removedEvent (some .noAnswer) n))
  exact ⟨es, k, he, hm⟩

/-- R79: the entry of a station removed is gone, every other stands. -/
theorem entry_unitsWithout_single (n m : Station) (s : State) :
    (unitsWithout (single n) s).1.entry m = if m = n then none else s.agr.entry m := by
  have hb : (single n).getLsbD m.val = decide (m = n) := inSet_single m n
  have ht : (unitsWithout (single n) s).1.entry m = Table.get? (Table.dropSet s.agr.table (single n)) m.val := rfl
  rw [ht, Table.get?_dropSet, hb]
  simp only [decide_eq_true_eq]
  rfl

/-- Settles O49: `windowEnds` for a sole member, after attempt 1 and after attempt 2. -/
theorem turnaroundWindowEnds : Obligations.TurnaroundWindowEnds := by
  intro s run c hr hp ht hh hc
  have hx := exec_turnaroundWindowEnd hr hp ht hh
  refine ⟨fun hown => ?_, fun hown ha => ?_, fun hown ha => ?_⟩
  · obtain ⟨batch, tx, hb, hcount, _, hstatus, hleave⟩ := beginPossession_eq hc
    refine ⟨beginPossession s, tx, ?_, ?_, ?_, fun hl => hstatus ?_, hleave⟩
    · rw [hx, windowEnds, if_pos hown]
    · rw [hb]; rfl
    · rw [hb]; exact hcount
    · rw [hl]; exact Life.noConfusion
  · rw [hx, windowEnds, if_neg hown, ha]
    rfl
  · intro gone v rest next hn
    obtain ⟨es, k, he, hm⟩ := removeSilent_eq run.successor s
    have hs : successor s.number v = some next := successor_eq_some.2 hn
    refine ⟨passOver run s, es, ?_, ?_, hm, ?_, fun n hne => ?_⟩
    · rw [hx, windowEnds, if_neg hown, ha]
    · rw [passOver, he]
      exact grantHandover_eq hs
    · rw [passOver, he]
      exact (entry_unitsWithout_single _ _ s).trans (if_pos rfl)
    · rw [passOver, he]
      exact (entry_unitsWithout_single _ _ s).trans (if_neg hne)

/-! ### A possession begun by a HANDOVER packet (R37) -/

/-- What hearing a HANDOVER packet changes does not depend on whom it names. -/
theorem heardBy_handover (h : Head) (d : Dest) (a : Attempt) (v : StationSet) (f : Option Flaw) (s : State) :
    heardBy (.handover { h with dest := d } a v f) s = heardBy (.handover h a v f) s := rfl

/-- A station of the view that is not LEAVING is a MEMBER. -/
theorem member_of_inView {s : State} (hv : s.inView = true) (hl : s.startup.life ≠ .leaving) : s.startup.life = .member := by
  rw [State.inView, Bool.or_eq_true, beq_iff_eq, beq_iff_eq] at hv
  exact hv.resolve_right hl

/-- The membership a view makes that contains the station: of the view, LEAVING if it was. -/
theorem handoverMembership_life (h : Head) {v : StationSet} {s : State} (hv : inSet s.number v = true)
    (hl : s.inView = true ∨ s.startup.life = .joinPending) :
    let w := handoverMembership h v s
    w.mem.view = v ∧ w.startup.config = s.startup.config ∧
      w.startup.life = (if s.startup.life = .leaving then .leaving else .member) := by
  rcases hl with hi | hj
  · have hc := adopt_core v s
    rw [handoverMembership_adopts h hi hv]
    dsimp only
    rw [hc.mem, hc.startup]
    refine ⟨rfl, rfl, ?_⟩
    by_cases hl : s.startup.life = .leaving
    · rw [if_pos hl]; exact hl
    · rw [if_neg hl]; exact member_of_inView hi hl
  · rw [handoverMembership_enters h hj hv]
    dsimp only
    rw [hj]
    exact ⟨rfl, rfl, rfl⟩

/-- Settles O36: the membership, then `beginPossession` over it. -/
theorem handoverBeginsAPossession : Obligations.HandoverBeginsAPossession := by
  intro h a v f s c ht hd hv hc hl
  have htake := takesPacket_of_listensTo h s ht
  have hlisten : s.pos.state = .listening := by
    simp only [listensTo, Bool.and_eq_true, beq_iff_eq] at ht
    exact ht.1.2
  have hother : exec (.handoverHeard { h with dest := .all } a v f) s =
      .next (handoverMembership h v (heardBy (.handover h a v f) s)) :=
    exec_handover_unnamed { h with dest := .all } a v f s htake (fun hn => nomatch hn.1)
  have hnamed : exec (.handoverHeard h a v f) s = .next (onHandover h v (heardBy (.handover h a v f) s)) :=
    congrArg Host.Outcome.next (hear_taken (.handover h a v f) (onHandover h v) s htake)
  obtain ⟨hnum, hst, hpos⟩ := heardBy_keeps (.handover h a v f) s
  obtain ⟨hview, hcfg, hlife⟩ := handoverMembership_life h (v := v) (s := heardBy (.handover h a v f) s) (hnum ▸ hv)
    (by rw [State.inView_eq, hst, ← State.inView_eq]; exact hl)
  have hwnum := handoverMembership_number h v (heardBy (.handover h a v f) s)
  have hwpos := handoverMembership_pos h v (heardBy (.handover h a v f) s) (hnum ▸ hv)
  rw [hst] at hcfg hlife
  rw [hnum] at hwnum
  have hon : onHandover h v (heardBy (.handover h a v f) s) =
      beginPossession (handoverMembership h v (heardBy (.handover h a v f) s)) := by
    refine if_pos ?_
    have hw : (handoverMembership h v (heardBy (.handover h a v f) s)).inView = true := by
      rw [State.inView_eq, hlife]; split <;> rfl
    simp only [hw, hwpos, hpos, hlisten, addressed, hwnum, hd, hv, beq_self_eq_true, Bool.and_self]
  rw [hon] at hnamed
  generalize handoverMembership h v (heardBy (.handover h a v f) s) = w at *
  have hleaving : w.startup.life = .leaving ↔ s.startup.life = .leaving := by
    rw [hlife]; split <;> simp [*]
  obtain ⟨batch, tx, hb, hcount, hbl, hstatus, hleave⟩ := beginPossession_eq (hcfg.trans hc)
  simp only [ne_eq, hleaving] at hbl hstatus hleave
  refine ⟨w, _, hother, hnamed, ?_, ?_⟩
  · rw [beginPossession, enterPossessing_eq]
    simp only [hleaving]
  · rw [hb]
    refine ⟨hview, rfl, rfl, hcount, hbl, fun hn => ⟨hlife.trans (if_neg hn), ?_⟩, fun hn => ⟨hlife.trans (if_pos hn), ?_⟩⟩
    · rw [hstatus hn, ← hwnum]; rfl
    · rw [hleave hn, ← hwnum]

end Sys2Proof.Machine
end

section
/-! PROOF. What each class of the scheduler offers, and the stations that may be asked, invited and declared alone (R39, R65, R105,
R113, R114, R116, R131, R136, R144, R146). -/

namespace Sys2Proof.Machine

/-! ### The stations in cyclic order (R65, R113) -/

theorem mem_upFrom (c n : Station) : n ∈ upFrom c := by
  refine List.mem_map.2 ⟨n - (c + 1), List.mem_finRange _, ?_⟩
  abel

/-- Counting upward from the one above a station, the first that passes a test is the nearest that does. -/
theorem find?_upFrom {c n : Station} {p : Station → Bool} (h : (upFrom c).find? p = some n) :
    p n = true ∧ ∀ m, p m = true → n - (c + 1) ≤ m - (c + 1) := by
  rw [upFrom, List.find?_map, Option.map_eq_some_iff] at h
  obtain ⟨k, hk, rfl⟩ := h
  obtain ⟨_, hp, hle⟩ := (find?_eq_some_of_ascending stations_ascending _ _).1 hk
  refine ⟨hp, fun m hm => ?_⟩
  have hd : ∀ x : Station, c + 1 + (x - (c + 1)) = x := fun x => by abel
  rw [add_sub_cancel_left]
  exact hle _ (List.mem_finRange _) (by simpa only [Function.comp, hd] using hm)

theorem find?_upFrom_isSome {c : Station} {p : Station → Bool} : ((upFrom c).find? p).isSome = true ↔ ∃ n, p n = true := by
  rw [List.find?_isSome]
  exact ⟨fun ⟨n, _, hn⟩ => ⟨n, hn⟩, fun ⟨n, hn⟩ => ⟨n, mem_upFrom c n, hn⟩⟩

/-! ### The snapshot candidate and self-authority (R113, R116) -/

theorem qualifies_iff (s : State) (n : Station) : qualifies s.number s.mem.view s.agr n = true ↔ MayBeAsked s n := by
  unfold qualifies MayBeAsked
  rcases s.agr.entry n with _ | ⟨q, _ | rep⟩ <;> simp [and_assoc]

theorem MayBeAsked.inView {s : State} {n : Station} (h : MayBeAsked s n) : inSet n s.mem.view = true := h.2.1

/-- R113: a candidate is found exactly where some member may be asked. -/
theorem choice_isSome (s : State) :
    (s.pal.choice s.number s.mem.view s.agr).isSome = true ↔ ∃ n, MayBeAsked s n := by
  simp only [← qualifies_iff]
  unfold Pal.choice
  split
  · rw [List.find?_isSome]
    refine ⟨fun ⟨n, _, hn⟩ => ⟨n, hn⟩, fun ⟨n, hn⟩ => ⟨n, mem_members.2 ?_, hn⟩⟩
    exact ((qualifies_iff s n).1 hn).inView
  · exact find?_upFrom_isSome

/-- R113: the lowest, or after one asked before the nearest counting upward from it. -/
theorem choice_eq_some {s : State} {n : Station} (h : s.pal.choice s.number s.mem.view s.agr = some n) :
    MayBeAsked s n ∧ (s.pal.candidate = none → ∀ m, MayBeAsked s m → n ≤ m) ∧
      ∀ asked, s.pal.candidate = some asked → ∀ m, MayBeAsked s m → n - (asked + 1) ≤ m - (asked + 1) := by
  simp only [← qualifies_iff]
  unfold Pal.choice at h
  cases hc : s.pal.candidate with
  | none =>
    rw [hc] at h
    obtain ⟨_, hq, hle⟩ := find?_members.1 h
    exact ⟨hq, fun _ m hm => hle m ((qualifies_iff s m).1 hm).inView hm, by rintro _ ⟨⟩⟩
  | some a =>
    rw [hc] at h
    obtain ⟨hq, hle⟩ := find?_upFrom h
    refine ⟨hq, by rintro ⟨⟩, ?_⟩
    rintro _ ⟨⟩
    exact hle

/-- A station's entry is heard, and its last report shows NORMAL or another palette state. -/
def HeardAs (s : State) (n : Station) (normal : Bool) : Prop :=
  ∃ q rep, s.agr.entry n = some ⟨q, some rep⟩ ∧ (rep.palette == .normal) = normal

/-- R116: the conditions under which a station declares its own bank authoritative. -/
def Alone (s : State) : Prop :=
  s.startup.life = .member ∧ s.pal.state = .resync ∧ (∀ n, ¬ MayBeAsked s n) ∧
    (∀ n, inSet n s.mem.view = true → ∃ b, HeardAs s n b) ∧ HeardAs s s.number false ∧
    ∀ n, n < s.number → inSet n s.mem.view = true → HeardAs s n true

theorem selfAuthority_iff {s : State} (hn : inSet s.number s.mem.view = true) : selfAuthority s = true ↔ Alone s := by
  have hheard : ∀ n, (match s.agr.entry n with | some ⟨_, some _⟩ => true | _ => false) = true ↔ ∃ b, HeardAs s n b := by
    intro n
    unfold HeardAs
    rcases s.agr.entry n with _ | ⟨q, _ | rep⟩ <;> simp
  have hother : ∀ n, (match s.agr.entry n with | some ⟨_, some rep⟩ => rep.palette != .normal | _ => false) = true ↔
      HeardAs s n false := by
    intro n
    unfold HeardAs
    rcases s.agr.entry n with _ | ⟨q, _ | rep⟩ <;> simp
  have hnone : (s.pal.choice s.number s.mem.view s.agr).isNone = true ↔ ∀ n, ¬ MayBeAsked s n := by
    rw [Option.isNone_iff_eq_none, ← not_exists, ← choice_isSome, Option.not_isSome_iff_eq_none]
  simp only [selfAuthority, Bool.and_eq_true, beq_iff_eq, hnone, List.all_eq_true, mem_members, find?_members, and_assoc, Alone,
    hn, true_and]
  refine and_congr_right fun _ => and_congr_right fun _ => and_congr_right fun _ => ⟨?_, ?_⟩
  · rintro ⟨hall, hown, hleast⟩
    have heard : ∀ n, inSet n s.mem.view = true → ∃ b, HeardAs s n b := fun n hv => (hheard n).1 (hall n hv)
    refine ⟨heard, (hother _).1 hown, fun n hlt hv => ?_⟩
    obtain ⟨b, hb⟩ := heard n hv
    cases b with
    | true => exact hb
    | false => exact absurd hlt (not_lt.2 (hleast n hv ((hother n).2 hb)))
  · rintro ⟨heard, hown, hleast⟩
    refine ⟨fun n hv => (hheard n).2 (heard n hv), (hother _).2 hown, fun n hv ho => ?_⟩
    by_contra hlt
    obtain ⟨q, rep, he, hp⟩ := hleast n (not_le.1 hlt) hv
    obtain ⟨q', rep', he', hp'⟩ := (hother n).1 ho
    rw [he] at he'
    cases he'
    rw [hp] at hp'
    cases hp'

/-- R116: the event of a declaration. -/
def selfResynced (s : State) : EventRecord :=
  { kind := .paletteResynced, station := some s.number, sequence := some s.agr.l, reason := some .self }

/-- R116: a station alone takes its own bank for the wall's, with PALETTE RESYNCED; any other station changes nothing. -/
theorem declareAuthority_eq {s : State} (hn : inSet s.number s.mem.view = true) :
    (Alone s → declareAuthority s = { s with
      pal := { s.pal with state := .normal, store := [], candidate := none, outstanding := false, wait := none, install := none }
      cpe := { s.cpe with events := pushEvent s.cpe.events (selfResynced s) } }) ∧
    (¬ Alone s → declareAuthority s = s) :=
  ⟨fun h => if_pos ((selfAuthority_iff hn).2 h), fun h => if_neg (h ∘ (selfAuthority_iff hn).1)⟩

/-! ### Where each class offers a packet (R39) -/

/-- The packet that one of the classes 2 and 4 to 11 offers. -/
def offerOf (s : State) : TxClass → Option Tx
  | .commit => offerCommit s
  | .readReturn => offerReturn s
  | .snapshotRequest => offerSnapshotRequest s
  | .retry => offerRetry s
  | .priority => offerPriority s
  | .palette => offerPalette s
  | .request => offerRequest s
  | .bulk => offerBulk s
  | .invite => offerInvite s
  | _ => none

/-- The classes 4 to 11, in their order. -/
def countedClasses : List TxClass :=
  [.readReturn, .snapshotRequest, .retry, .priority, .palette, .request, .bulk, .invite]

theorem offerCounted_eq (s : State) : offerCounted s = countedClasses.findSome? (offerOf s) := rfl

/-- R144: the credit records let a message go to its destination. -/
def Msg.Room (g : Msg) (own : Station) (view : StationSet) : Dest → Prop
  | .station n => 1 ≤ creditOf g.credits n
  | .all => ∀ n, n ≠ own → inSet n view = true → 1 ≤ creditOf g.credits n

theorem Msg.hasRoom_iff (g : Msg) (own : Station) (view : StationSet) (d : Dest) :
    g.hasRoom own view d = true ↔ g.Room own view d := by
  cases d with
  | station n => exact decide_eq_true_iff
  | all =>
    simp only [Msg.hasRoom, Msg.Room, List.all_eq_true, mem_members, inSet_removeFrom, Bool.and_eq_true, Bool.not_eq_true',
      decide_eq_false_iff_not, decide_eq_true_eq]
    exact ⟨fun h n hn hv => h n ⟨hv, hn⟩, fun h n hn => h n hn.2 hn.1⟩

/-- R146: the retry record is offered where its destination has room. -/
theorem Msg.offerRetry_eq_some {g : Msg} {own : Station} {view : StationSet} {m : OutMessage} :
    g.offerRetry own view = some m ↔ g.retry = some m ∧ g.Room own view m.dest := by
  unfold Msg.offerRetry
  cases g.retry with
  | none => simp
  | some r =>
    simp only [Msg.hasRoom_iff, Option.ite_none_right_eq_some, Option.some.injEq]
    constructor
    · rintro ⟨h, rfl⟩; exact ⟨rfl, h⟩
    · rintro ⟨rfl, h⟩; exact ⟨h, rfl⟩

/-- R144: the head of a class queue is offered where there is no retry record and its destination has room. -/
theorem Msg.offer_eq_some {g : Msg} {own : Station} {view : StationSet} {q : List OutMessage} {m : OutMessage} :
    g.offer own view q = some m ↔ g.retry = none ∧ (∃ rest, q = m :: rest) ∧ g.Room own view m.dest := by
  unfold Msg.offer
  cases g.retry with
  | some r => simp
  | none =>
    cases q with
    | nil => simp
    | cons a rest =>
      simp only [Msg.hasRoom_iff, Option.ite_none_right_eq_some, Option.some.injEq]
      constructor
      · rintro ⟨h, rfl⟩; exact ⟨trivial, ⟨rest, rfl⟩, h⟩
      · rintro ⟨_, ⟨_, he⟩, h⟩
        obtain ⟨rfl, rfl⟩ := List.cons.inj he
        exact ⟨h, rfl⟩

section
variable {s : State}

theorem offerSnapshotRequest_eq_some {tx : Tx} : offerSnapshotRequest s = some tx ↔
    (s.pal.state = .resync ∧ s.pal.outstanding = false ∧ s.pos.batch.snapshotAsked = false) ∧
      ∃ n, s.pal.choice s.number s.mem.view s.agr = some n ∧
        tx = ⟨.snapshotRequest, .snapshotRequest ⟨s.number, .station n, s.pal.requestTag + 1, false⟩ none⟩ := by
  simp only [offerSnapshotRequest, Option.ite_none_right_eq_some, Option.map_eq_some_iff, Bool.not_eq_true', State.head,
    eq_comm (b := tx)]

theorem offerPalette_eq_some {tx : Tx} : offerPalette s = some tx ↔ ∃ r rest, s.pal.outbound = r :: rest ∧
    (∀ n, inSet n s.mem.view = true → 1 ≤ creditOf s.pal.credits n) ∧
    tx = ⟨.palette, .palette ⟨s.number, .all, 0, false⟩
      (.good { serial := s.pal.e, effective := r.effective, start := r.start, entries := r.entries })⟩ := by
  unfold offerPalette
  cases s.pal.outbound with
  | nil => simp
  | cons r rest =>
    simp only [Option.ite_none_right_eq_some, List.all_eq_true, mem_members, decide_eq_true_eq, Option.some.injEq, State.head,
      List.cons.injEq]
    constructor
    · rintro ⟨h, rfl⟩; exact ⟨r, rest, ⟨rfl, rfl⟩, h, rfl⟩
    · rintro ⟨_, _, ⟨rfl, rfl⟩, h, rfl⟩; exact ⟨h, rfl⟩

theorem offerInvite_eq_some {tx : Tx} : offerInvite s = some tx ↔
    (anchor s.mem.view = some s.number ∧ s.startup.life = .member ∧ s.pos.batch.inviteSent = false) ∧
      ∃ n, nextAbsent s.mem.cursor s.mem.view = some n ∧ tx = ⟨.invite, .invite ⟨s.number, .station n, 0, false⟩ none⟩ := by
  simp only [offerInvite, Option.ite_none_right_eq_some, Option.map_eq_some_iff, Bool.not_eq_true', State.head,
    eq_comm (b := tx)]

/-- The packet a class offers is of that class. -/
theorem cls_of_offerOf {c : TxClass} {tx : Tx} (h : offerOf s c = some tx) : tx.cls = c := by
  have mapped : ∀ {α : Type} {o : Option α} {f : α → Packet}, o.map (fun a => Tx.mk c (f a)) = some tx → tx.cls = c := by
    intro α o f ho
    obtain ⟨a, _, rfl⟩ := Option.map_eq_some_iff.1 ho
    rfl
  cases c with
  | commit => exact mapped h
  | readReturn => exact mapped h
  | snapshotRequest => obtain ⟨_, n, _, rfl⟩ := offerSnapshotRequest_eq_some.1 h; rfl
  | retry => exact mapped h
  | priority => exact mapped h
  | palette => obtain ⟨r, rest, _, _, rfl⟩ := offerPalette_eq_some.1 h; rfl
  | request => exact mapped h
  | bulk => exact mapped h
  | invite => obtain ⟨_, n, _, rfl⟩ := offerInvite_eq_some.1 h; rfl
  | _ => cases h

/-! ### The conditions of the classes, as R39 lists them -/

theorem offerCommit_isSome : (offerCommit s).isSome = true ↔ s.agr.pendingCommit ≠ none := by
  rw [offerCommit, Option.isSome_map, Option.isSome_iff_ne_none]

theorem offerReturn_isSome : (offerReturn s).isSome = true ↔ s.att.returns ≠ [] := by
  rw [offerReturn, Option.isSome_map]
  cases s.att.returns <;> simp

theorem offerSnapshotRequest_isSome : (offerSnapshotRequest s).isSome = true ↔
    s.pal.state = .resync ∧ s.pal.outstanding = false ∧ s.pos.batch.snapshotAsked = false ∧ ∃ n, MayBeAsked s n := by
  rw [← choice_isSome, Option.isSome_iff_exists, Option.isSome_iff_exists]
  simp only [offerSnapshotRequest_eq_some]
  constructor
  · rintro ⟨_, ⟨h1, h2, h3⟩, n, hn, _⟩; exact ⟨h1, h2, h3, n, hn⟩
  · rintro ⟨h1, h2, h3, n, hn⟩; exact ⟨_, ⟨h1, h2, h3⟩, n, hn, rfl⟩

theorem offerRetry_isSome :
    (offerRetry s).isSome = true ↔ ∃ m, s.msg.retry = some m ∧ s.msg.Room s.number s.mem.view m.dest := by
  rw [offerRetry, Option.isSome_map, Option.isSome_iff_exists]
  simp only [Msg.offerRetry_eq_some]

/-- R144: the condition of a class of messages. -/
theorem Msg.offer_map_isSome {g : Msg} {own : Station} {view : StationSet} {q : List OutMessage} {f : OutMessage → Tx} :
    ((g.offer own view q).map f).isSome = true ↔ g.retry = none ∧ ∃ m rest, q = m :: rest ∧ g.Room own view m.dest := by
  rw [Option.isSome_map, Option.isSome_iff_exists]
  simp only [Msg.offer_eq_some, exists_and_left, exists_and_right]

theorem offerPalette_isSome : (offerPalette s).isSome = true ↔
    s.pal.outbound ≠ [] ∧ ∀ n, inSet n s.mem.view = true → 1 ≤ creditOf s.pal.credits n := by
  rw [Option.isSome_iff_exists]
  simp only [offerPalette_eq_some]
  constructor
  · rintro ⟨_, r, rest, hq, hc, _⟩; exact ⟨by rw [hq]; exact List.cons_ne_nil _ _, hc⟩
  · rintro ⟨hq, hc⟩
    obtain ⟨r, rest, hq⟩ := List.exists_cons_of_ne_nil hq
    exact ⟨_, r, rest, hq, hc, rfl⟩

theorem offerRequest_isSome : (offerRequest s).isSome = true ↔
    ∃ r ∈ s.att.requests, r.state = .queued ∧ r.tag ∉ s.pos.batch.requestsSent := by
  rw [offerRequest, Option.isSome_map, Att.offer, List.find?_isSome]
  simp

/-- R65: the anchor invites while a station is absent. -/
theorem offerInvite_isSome (hl : s.startup.life = .member) (hn : inSet s.number s.mem.view = true) :
    (offerInvite s).isSome = true ↔ (∀ n, inSet n s.mem.view = true → s.number ≤ n) ∧ s.pos.batch.inviteSent = false ∧
      ∃ n, inSet n s.mem.view = false := by
  have ha : anchor s.mem.view = some s.number ↔ ∀ n, inSet n s.mem.view = true → s.number ≤ n := by
    rw [anchor, head?_members, hn]; simp
  have hx : (∃ n, nextAbsent s.mem.cursor s.mem.view = some n) ↔ ∃ n, inSet n s.mem.view = false := by
    rw [← Option.isSome_iff_exists, nextAbsent, find?_upFrom_isSome]
    simp only [Bool.not_eq_true']
  rw [Option.isSome_iff_exists, ← ha, ← hx]
  simp only [offerInvite_eq_some]
  constructor
  · rintro ⟨_, ⟨h1, _, h3⟩, n, hn, _⟩; exact ⟨h1, h3, n, hn⟩
  · rintro ⟨h1, h3, n, hn⟩; exact ⟨_, ⟨h1, hl, h3⟩, n, hn, rfl⟩

end

end Sys2Proof.Machine
end

section
/-! PROOF. The choice among the classes and the packets it grants: O30 and O31. -/

namespace Sys2Proof.Machine

/-! ### The first class of an order that offers a packet -/

/-- Two orders of the same classes whose conditions agree, each asked where those before it fail. -/
def SameOrder : List (Prop × TxClass) → List (Prop × TxClass) → Prop
  | [], [] => True
  | (p, c) :: xs, (q, d) :: ys => c = d ∧ (p ↔ q) ∧ (¬ p → SameOrder xs ys)
  | _, _ => False

theorem FirstOf.congr {xs ys : List (Prop × TxClass)} {k : TxClass} (h : SameOrder xs ys) (hx : FirstOf xs k) : FirstOf ys k := by
  induction xs generalizing ys with
  | nil =>
    cases ys with
    | nil => trivial
    | cons y ys => exact h.elim
  | cons x xs ih =>
    cases ys with
    | nil => exact h.elim
    | cons y ys =>
      obtain ⟨p, c⟩ := x
      obtain ⟨q, d⟩ := y
      obtain ⟨rfl, hpq, hrest⟩ := h
      exact ⟨fun hq => hx.1 (hpq.2 hq), fun hq => ih (hrest (hq ∘ hpq.1)) (hx.2 (hq ∘ hpq.1))⟩

theorem FirstOf.here {p : Prop} {k : TxClass} {xs : List (Prop × TxClass)} (hp : p) : FirstOf ((p, k) :: xs) k :=
  ⟨fun _ => rfl, fun hn => absurd hp hn⟩

theorem FirstOf.later {p : Prop} {c k : TxClass} {xs : List (Prop × TxClass)} (hp : ¬ p) (h : FirstOf xs k) :
    FirstOf ((p, c) :: xs) k :=
  ⟨fun hq => absurd hq hp, fun _ => h⟩

/-- The order of a list of classes, each with the condition that it offers a packet. -/
def offering (s : State) (cs : List TxClass) : List (Prop × TxClass) := cs.map (fun c => ((offerOf s c).isSome = true, c))

/-- The packet found along a list of classes is of the first that offers one; where none is found, the order goes on. -/
theorem firstOf_offering (s : State) (cs : List TxClass) (rest : List (Prop × TxClass)) :
    (∀ tx, cs.findSome? (offerOf s) = some tx → FirstOf (offering s cs ++ rest) tx.cls ∧ offerOf s tx.cls = some tx) ∧
    (cs.findSome? (offerOf s) = none → ∀ k, FirstOf rest k → FirstOf (offering s cs ++ rest) k) := by
  induction cs with
  | nil => exact ⟨fun _ h => (nomatch h), fun _ _ h => h⟩
  | cons c cs ih =>
    cases ho : offerOf s c with
    | some a =>
      have hc := cls_of_offerOf ho
      rw [List.findSome?_cons_of_isSome (by rw [ho]; rfl), ho]
      refine ⟨?_, fun h => (nomatch h)⟩
      rintro _ ⟨⟩
      rw [hc]
      exact ⟨.here (by rw [ho]; rfl), ho⟩
    | none =>
      rw [List.findSome?_cons_of_isNone (by rw [ho]; rfl)]
      have hn : ¬ (offerOf s c).isSome = true := by rw [ho]; exact Bool.false_ne_true
      exact ⟨fun tx h => ⟨.later hn (ih.1 tx h).1, (ih.1 tx h).2⟩, fun h k hk => .later hn (ih.2 h k hk)⟩

/-- The classes 2 to 12 in their order, an answer begun before them and the hold budget after it (R39 to R41, R118). -/
def classOrder (s : State) : List (Prop × TxClass) :=
  (s.pal.answer.isSome = true, .answer) :: ((s.startup.life = .leaving || budgetUsed s) = true, .handover) ::
    ((offerOf s .commit).isSome = true, .commit) :: (answerOffered s = true, .answer) ::
      (offering s countedClasses ++ [(True, .handover)])

/-! ### The packet of an answer (R117 to R119) -/

theorem answerAgrees_iff (s : State) : answerAgrees s = true ↔ (s.pal.owed ≠ none → s.pal.state = .normal) ∧
    ∀ a, s.pal.answer = some a → s.pal.owed ≠ none ∧ a.next < 8 + a.n ∧ a.n ≤ s.pal.store.length := by
  unfold answerAgrees
  cases s.pal.owed <;> cases s.pal.answer <;> simp

/-- R118: the answer being sent, or the one that begins with S, E0 and n as they stand. -/
def Pal.currentAnswer (p : Pal) (l : Seq) : Answer :=
  p.answer.getD { s := l, e0 := p.e, n := p.store.length, next := 0 }

theorem Pal.startAnswer_eq (p : Pal) (l : Seq) : p.startAnswer l = { p with answer := some (p.currentAnswer l) } := by
  unfold Pal.startAnswer Pal.currentAnswer
  split
  · rename_i a ha
    obtain ⟨⟩ := p
    cases ha
    rfl
  · rename_i ha
    rw [ha]
    rfl

/-- R118: the packet of an answer: a part while one is left to send, then the replays. -/
def IsAnswerPacket (p : Pal) (own : Station) (o : Owed) (a : Answer) (k : Packet) : Prop :=
  (a.next < 8 → k = .snapshot ⟨own, .station o.requester, o.tag, false⟩ (byte a.next) (.good
    { lead := if a.next = 0 then some { s := a.s, e0 := a.e0, n := byte a.n } else none
      entries := partEntries p.answerBank a.next })) ∧
  (8 ≤ a.next → ∃ r, p.store[a.next - 8]? = some r ∧ k = .replay ⟨own, .station o.requester, o.tag, false⟩ (.good r))

/-- An answer that has a packet left has it ready. -/
theorem answerPacket_exists {p : Pal} {own : Station} {o : Owed} {a : Answer} (ho : p.owed = some o)
    (hn : a.next < 8 + a.n) (hs : a.n ≤ p.store.length) :
    ∃ k, { p with answer := some a }.answerPacket own = some k ∧ IsAnswerPacket p own o a k := by
  unfold Pal.answerPacket
  simp only [ho]
  by_cases h8 : a.next < 8
  · rw [if_pos h8]
    exact ⟨_, rfl, fun _ => rfl, fun h => absurd h8 (Nat.not_lt.2 h)⟩
  · rw [if_neg h8]
    obtain ⟨r, hr⟩ : ∃ r, p.store[a.next - 8]? = some r := ⟨_, List.getElem?_eq_getElem (by omega)⟩
    exact ⟨_, by rw [hr]; rfl, fun h => absurd h h8, fun _ => ⟨r, hr, rfl⟩⟩

/-- R118: where an answer is offered, its packet is granted. -/
theorem grantAnswer_eq {s : State} (ha : answerAgrees s = true) (ho : answerOffered s = true) :
    ∃ o k, s.pal.owed = some o ∧ IsAnswerPacket s.pal s.number o (s.pal.currentAnswer s.agr.l) k ∧
      grantAnswer s = grant ⟨.answer, k⟩ { s with pal := { s.pal with answer := some (s.pal.currentAnswer s.agr.l) } } := by
  obtain ⟨hstate, hsending⟩ := (answerAgrees_iff s).1 ha
  obtain ⟨o, howed⟩ : ∃ o, s.pal.owed = some o := by
    rw [← Option.ne_none_iff_exists']
    rw [answerOffered, Bool.or_eq_true] at ho
    rcases ho with ho | ho
    · obtain ⟨a, hx⟩ := Option.isSome_iff_exists.1 ho
      exact (hsending a hx).1
    · rintro hn
      rw [hn] at ho
      cases ho
  obtain ⟨hn, hs⟩ : (s.pal.currentAnswer s.agr.l).next < 8 + (s.pal.currentAnswer s.agr.l).n ∧
      (s.pal.currentAnswer s.agr.l).n ≤ s.pal.store.length := by
    cases hx : s.pal.answer with
    | some a =>
      have hcur : s.pal.currentAnswer s.agr.l = a := by rw [Pal.currentAnswer, hx]; rfl
      rw [hcur]
      exact (hsending a hx).2
    | none =>
      rw [Pal.currentAnswer, hx]
      exact ⟨by simp only [Option.getD_none]; omega, le_refl _⟩
  obtain ⟨k, hk, hp⟩ := answerPacket_exists (own := s.number) howed hn hs
  refine ⟨o, k, howed, hp, ?_⟩
  have hst : s.onPal (fun p => p.startAnswer s.agr.l) =
      { s with pal := { s.pal with answer := some (s.pal.currentAnswer s.agr.l) } } := by
    rw [State.onPal, Pal.startAnswer_eq]
  rw [grantAnswer, hst]
  dsimp only
  split
  · rename_i k' hk'
    obtain rfl : k' = k := Option.some.inj (hk'.symm.trans hk)
    rfl
  · rename_i hk'
    exact absurd (hk'.symm.trans hk) (fun h => nomatch h)

/-! ### What a choice among the classes grants -/

/-- The packet that a choice among classes 2 to 12 hands to the LIF, and the state it leaves. -/
inductive Grants (s : State) : Tx → State → Prop
  | answer (o : Owed) (k : Packet) (ho : s.pal.owed = some o)
      (hk : IsAnswerPacket s.pal s.number o (s.pal.currentAnswer s.agr.l) k) :
      Grants s ⟨.answer, k⟩
        (grant ⟨.answer, k⟩ { s with pal := { s.pal with answer := some (s.pal.currentAnswer s.agr.l) } })
  | handover (next : Station) (hn : IsSuccessor s.number s.mem.view next) :
      Grants s ⟨.handover, .handover ⟨s.number, .station next, 0, false⟩ .first s.mem.view none⟩
        ((grant ⟨.handover, .handover ⟨s.number, .station next, 0, false⟩ .first s.mem.view none⟩ s).onPos
          (fun p => { p with handover := some ⟨.first, next, s.mem.view⟩ }))
  | offer (tx : Tx) (ho : offerOf s tx.cls = some tx) : Grants s tx (grant tx s)

/-- The one lemma about the choice among the classes: what it grants, and that its class is the first that offers. -/
theorem chooseAmong_grants {s : State} (hn : inSet s.number s.mem.view = true) (ha : answerAgrees s = true) :
    ∃ tx, Grants s tx (chooseAmong s) ∧ FirstOf (classOrder s) tx.cls := by
  have answers : answerOffered s = true → ∃ tx, Grants s tx (grantAnswer s) ∧ tx.cls = .answer := by
    intro ho
    obtain ⟨o, k, howed, hk, hg⟩ := grantAnswer_eq ha ho
    rw [hg]
    exact ⟨_, .answer o k howed hk, rfl⟩
  obtain ⟨tx0, hover, hcls0⟩ : ∃ tx, Grants s tx (grantHandover s) ∧ tx.cls = .handover := by
    obtain ⟨next, hs, hn⟩ := exists_successor (own := s.number) hn
    rw [grantHandover_eq hn]
    exact ⟨_, Grants.handover next hs, rfl⟩
  unfold chooseAmong classOrder
  by_cases h1 : s.pal.answer.isSome = true
  · obtain ⟨tx, hg, hc⟩ := answers (by rw [answerOffered, h1]; rfl)
    rw [if_pos h1]
    exact ⟨tx, hg, by rw [hc]; exact .here h1⟩
  rw [if_neg h1]
  by_cases h2 : (s.startup.life = .leaving || budgetUsed s) = true
  · rw [if_pos h2]
    exact ⟨tx0, hover, by rw [hcls0]; exact .later h1 (.here h2)⟩
  rw [if_neg h2]
  cases h3 : offerCommit s with
  | some tx =>
    have hc : tx.cls = .commit := cls_of_offerOf (c := .commit) h3
    exact ⟨tx, .offer tx (by rw [hc]; exact h3), by rw [hc]; exact .later h1 (.later h2 (.here (by rw [offerOf, h3]; rfl)))⟩
  | none =>
    have h3' : ¬ (offerOf s .commit).isSome = true := by rw [offerOf, h3]; exact Bool.false_ne_true
    dsimp only
    by_cases h4 : answerOffered s = true
    · obtain ⟨tx, hg, hc⟩ := answers h4
      rw [if_pos h4]
      exact ⟨tx, hg, by rw [hc]; exact .later h1 (.later h2 (.later h3' (.here h4)))⟩
    rw [if_neg h4, offerCounted_eq]
    obtain ⟨hsome, hnone⟩ := firstOf_offering s countedClasses [(True, .handover)]
    cases h5 : countedClasses.findSome? (offerOf s) with
    | some tx =>
      obtain ⟨hf, ho⟩ := hsome tx h5
      exact ⟨tx, .offer tx ho, .later h1 (.later h2 (.later h3' (.later h4 hf)))⟩
    | none =>
      exact ⟨tx0, hover, .later h1 (.later h2 (.later h3' (.later h4 (hnone h5 _ (by rw [hcls0]; exact .here trivial)))))⟩

section
variable {s t : State} {tx : Tx}

/-- What a grant changes: the driver, the handover noted with a HANDOVER packet, and the answer begun with an answer packet. -/
theorem Grants.frame (h : Grants s tx t) :
    t = { s with
      lif := { s.lif with driver := .waiting tx }, pos := { s.pos with handover := t.pos.handover }
      pal := { s.pal with answer := t.pal.answer } } ∧
    (tx.cls ≠ .handover → t.pos.handover = s.pos.handover) ∧ (tx.cls ≠ .answer → t.pal.answer = s.pal.answer) ∧
    (s.pal.owed = none → t.pal = s.pal) := by
  cases h with
  | answer o k ho hk =>
    exact ⟨rfl, fun _ => rfl, fun hc => absurd rfl hc, fun hn => (nomatch ho.symm.trans hn)⟩
  | handover next hn => exact ⟨rfl, fun hc => absurd rfl hc, fun _ => rfl, fun _ => rfl⟩
  | offer tx ho => exact ⟨rfl, fun _ => rfl, fun _ => rfl, fun _ => rfl⟩

/-- A packet of a class that offers is the one it offers, and nothing else changes. -/
theorem Grants.of_offer (h : Grants s tx t) (ha : tx.cls ≠ .answer) (hh : tx.cls ≠ .handover) :
    offerOf s tx.cls = some tx ∧ t = grant tx s := by
  cases h with
  | answer o k ho hk => exact absurd rfl ha
  | handover next hn => exact absurd rfl hh
  | offer tx ho => exact ⟨ho, rfl⟩

theorem Grants.of_answer (h : Grants s tx t) (hc : tx.cls = .answer) : ∃ o, s.pal.owed = some o ∧
    IsAnswerPacket s.pal s.number o (s.pal.currentAnswer s.agr.l) tx.packet ∧
    t.pal = { s.pal with answer := some (s.pal.currentAnswer s.agr.l) } := by
  cases h with
  | answer o k ho hk => exact ⟨o, ho, hk, rfl⟩
  | handover next hn => cases hc
  | offer tx ho => rw [hc] at ho; cases ho

theorem Grants.of_handover (h : Grants s tx t) (hc : tx.cls = .handover) : ∃ next, IsSuccessor s.number s.mem.view next ∧
    tx.packet = .handover ⟨s.number, .station next, 0, false⟩ .first s.mem.view none ∧
    t.pos.handover = some ⟨.first, next, s.mem.view⟩ := by
  cases h with
  | answer o k ho hk => cases hc
  | handover next hn => exact ⟨next, hn, rfl, rfl⟩
  | offer tx ho => rw [hc] at ho; cases ho

end

end Sys2Proof.Machine
end

section
/-! PROOF. The scheduler's choice after the STATUS packet: O30 and O31. -/

namespace Sys2Proof.Machine

/-! ### What precedes the choice among the classes (R116, R136) -/

/-- The state among whose classes a choice is made: stale returns dropped, and self-authority declared where its conditions hold. -/
def prepared (s : State) : State := declareAuthority { s with att := freshReturns s }

/-- A station alone is in RESYNC, so it owes no answer. -/
theorem Alone.no_answer {s : State} (h : Alone s) (ha : answerAgrees s = true) : s.pal.owed = none ∧ s.pal.answer = none := by
  obtain ⟨_, hr, _⟩ := h
  obtain ⟨hstate, hsending⟩ := (answerAgrees_iff s).1 ha
  have howed : s.pal.owed = none := by
    by_contra hn
    have hx := (hstate hn).symm.trans hr
    cases hx
  refine ⟨howed, ?_⟩
  by_contra hn
  obtain ⟨a, hx⟩ := Option.ne_none_iff_exists'.1 hn
  exact (hsending a hx).1 howed

/-- What the preparation leaves of the PAL and the event queue. -/
theorem prepared_eq {s : State} (hn : inSet s.number s.mem.view = true) : ∃ pal cpe,
    prepared s = { s with att := freshReturns s, pal := pal, cpe := cpe } ∧
    (Alone s → pal = { s.pal with
        state := .normal, store := [], candidate := none, outstanding := false, wait := none, install := none } ∧
      cpe = { s.cpe with events := pushEvent s.cpe.events (selfResynced s) }) ∧
    (¬ Alone s → pal = s.pal ∧ cpe = s.cpe) := by
  obtain ⟨hyes, hno⟩ := declareAuthority_eq (s := { s with att := freshReturns s }) hn
  by_cases h : Alone s
  · exact ⟨_, _, hyes h, fun _ => ⟨rfl, rfl⟩, fun hna => absurd h hna⟩
  · exact ⟨_, _, hno h, fun ha => absurd ha h, fun _ => ⟨rfl, rfl⟩⟩

/-- A choice after the STATUS packet: what it grants, over the PAL and the event queue as the preparation leaves them. -/
theorem choose_grants {s : State} (hn : inSet s.number s.mem.view = true) (ha : answerAgrees s = true)
    (hb : s.pos.batch.leaving = false) (hg : s.pos.batch.statusGranted = true) : ∃ pal cpe tx,
    Grants { s with att := freshReturns s, pal := pal, cpe := cpe } tx (choose s) ∧
    FirstOf (classOrder { s with att := freshReturns s, pal := pal, cpe := cpe }) tx.cls ∧
    (Alone s → pal = { s.pal with
        state := .normal, store := [], candidate := none, outstanding := false, wait := none, install := none } ∧
      cpe = { s.cpe with events := pushEvent s.cpe.events (selfResynced s) }) ∧
    (¬ Alone s → pal = s.pal ∧ cpe = s.cpe) := by
  obtain ⟨pal, cpe, hp, halone, hnot⟩ := prepared_eq hn
  have hc : choose s = chooseAmong { s with att := freshReturns s, pal := pal, cpe := cpe } := by
    rw [← hp, choose_eq, choosePacket, if_neg (by simp only [hb]; exact Bool.false_ne_true), if_pos hg]
    rfl
  have hagrees : answerAgrees { s with att := freshReturns s, pal := pal, cpe := cpe } = true := by
    rw [answerAgrees_iff]
    by_cases h : Alone s
    · obtain ⟨ho, hx⟩ := h.no_answer ha
      rw [(halone h).1]
      exact ⟨fun hno => absurd ho hno, fun a hxa => (nomatch hx.symm.trans hxa)⟩
    · rw [(hnot h).1]
      exact (answerAgrees_iff s).1 ha
  obtain ⟨tx, hgrants, hfirst⟩ := chooseAmong_grants (s := { s with att := freshReturns s, pal := pal, cpe := cpe }) hn hagrees
  exact ⟨pal, cpe, tx, hc ▸ hgrants, hfirst, halone, hnot⟩

/-! ### The order of the classes -/

theorem SameOrder.cons {p q : Prop} {c : TxClass} {xs ys : List (Prop × TxClass)} (h : p ↔ q) (hr : ¬ p → SameOrder xs ys) :
    SameOrder ((p, c) :: xs) ((q, c) :: ys) := ⟨rfl, h, hr⟩

theorem answerOffered_iff {s : State} (h : ¬ s.pal.answer.isSome = true) :
    answerOffered s = true ↔ ∃ o, s.pal.owed = some o ∧ inSet o.requester s.mem.view = true := by
  unfold answerOffered
  cases s.pal.owed <;> simp [h]

theorem handoverDue_iff {s : State} {c : ConfigRecord} (hc : s.startup.config = some c) :
    (s.startup.life = .leaving || budgetUsed s) = true ↔ s.startup.life = .leaving ∨ c.holdBudget ≤ s.pos.batch.count := by
  have hg : s.cfg = c := by rw [State.cfg, hc]; rfl
  rw [Bool.or_eq_true, decide_eq_true_iff, budgetUsed, decide_eq_true_iff, hg]

/-- R45: the HANDOVER packet of a station that took LEAVE before its STATUS packet was granted (log 10). -/
theorem choose_handover {s : State} {next : Station} (hb : s.pos.batch.leaving = false)
    (hg : s.pos.batch.statusGranted = false) (hl : s.startup.life = .leaving)
    (hn : successor s.number s.mem.view = some next) : choose s = { s with
    att := freshReturns s
    lif := { s.lif with driver := .waiting ⟨.handover, .handover ⟨s.number, .station next, 0, false⟩ .first s.mem.view none⟩ }
    pos := { s.pos with handover := some { attempt := .first, successor := next, view := s.mem.view } } } := by
  rw [choose_eq, choosePacket, if_neg (by simp only [hb]; exact Bool.false_ne_true),
    if_neg (by simp only [hg]; exact Bool.false_ne_true), if_pos hl]
  exact grantHandover_eq hn

/-- Settles O30: the first packets of a possession, then what the choice among the classes grants, in the order of the classes. -/
theorem schedulerGrantsTheFirstClass : Obligations.SchedulerGrantsTheFirstClass := by
  intro s c hc hv hn ha t head att waiting others raised
  refine ⟨fun hb => ⟨fun hs => choose_leave hb hs, fun hs next hnext => choose_leaveHandover hb hs (successor_eq_some.2 hnext)⟩,
    fun hb hg hl => choose_status hc hb hg (by rw [hl]; exact Life.noConfusion), fun hb hg hl => ?_, fun hb hg => ?_⟩
  · obtain ⟨next, hnext, hs⟩ := exists_successor (own := s.number) hn
    exact ⟨next, hnext, choose_handover hb hg hl hs⟩
  intro heard alone room
  obtain ⟨pal, cpe, tx, hgrants, hfirst, halone, hnot⟩ := choose_grants hn ha hb hg
  change Grants _ tx t at hgrants
  clear_value t
  obtain ⟨hframe, hhand, hans, hquiet⟩ := hgrants.frame
  have hpal : t.pal = { pal with answer := t.pal.answer } := congrArg State.pal hframe
  have hcpe : t.cpe = cpe := congrArg State.cpe hframe
  have hpalkeeps : pal.answer = s.pal.answer ∧ pal.owed = s.pal.owed ∧ pal.outbound = s.pal.outbound ∧
      pal.credits = s.pal.credits := by
    by_cases h : Alone s
    · rw [(halone h).1]; exact ⟨rfl, rfl, rfl, rfl⟩
    · rw [(hnot h).1]; exact ⟨rfl, rfl, rfl, rfl⟩
  obtain ⟨hanswer, howed, houtbound, hcredits⟩ := hpalkeeps
  refine ⟨tx, ?_, fun h => ⟨?_, ?_⟩, fun h => ⟨?_, ?_⟩, hhand, fun hne => (hans hne).trans hanswer, FirstOf.congr ?_ hfirst⟩
  · rw [hcpe]; rw [hpal] at hframe ⊢; exact hframe
  · rw [hcpe, (halone h).2]; rfl
  · rw [hquiet (howed.trans (Alone.no_answer h ha).1), ← (halone h).1]
  · rw [hcpe, (hnot h).2]
  · rw [← (hnot h).1]; exact hpal
  · have hps : t.pal.state = pal.state ∧ t.pal.outstanding = pal.outstanding := by rw [hpal]; exact ⟨rfl, rfl⟩
    rw [hps.1, hps.2, ← houtbound, ← hcredits, ← howed, ← hanswer]
    refine SameOrder.cons Option.isSome_iff_ne_none fun h1 => SameOrder.cons (handoverDue_iff hc) fun h2 =>
      SameOrder.cons offerCommit_isSome fun _ => SameOrder.cons (answerOffered_iff h1) fun _ =>
      SameOrder.cons offerReturn_isSome fun _ => SameOrder.cons offerSnapshotRequest_isSome fun _ =>
      SameOrder.cons offerRetry_isSome fun _ => SameOrder.cons Msg.offer_map_isSome fun _ =>
      SameOrder.cons offerPalette_isSome fun _ => SameOrder.cons offerRequest_isSome fun _ =>
      SameOrder.cons Msg.offer_map_isSome fun _ => SameOrder.cons (offerInvite_isSome ?_ hn) fun _ =>
      SameOrder.cons Iff.rfl fun _ => trivial
    exact member_of_inView hv fun hl => h2 ((handoverDue_iff hc).2 (.inl hl))

/-! ### What the granted packets carry -/

/-- R118: the answer that goes on, or the one that begins with S, E0 and n as they stand. -/
theorem Pal.currentAnswer_eq (p : Pal) (l : Seq) :
    (p.answer = none → p.currentAnswer l = { s := l, e0 := p.e, n := p.store.length, next := 0 }) ∧
    (p.answer ≠ none → p.answer = some (p.currentAnswer l)) := by
  unfold Pal.currentAnswer
  cases p.answer with
  | none => exact ⟨fun _ => rfl, fun h => absurd rfl h⟩
  | some a => exact ⟨fun h => (nomatch h), fun _ => rfl⟩

section
variable {s : State} {tx : Tx}

/-- R136: the READ RETURN packet is that of the oldest entry. -/
theorem offerReturn_eq_some (h : offerReturn s = some tx) :
    ∃ r rest, s.att.returns = r :: rest ∧ tx = ⟨.readReturn, returnPacket s r⟩ := by
  obtain ⟨r, hr, rfl⟩ := Option.map_eq_some_iff.1 h
  obtain ⟨rest, hq⟩ := List.head?_eq_some_iff.1 hr
  exact ⟨r, rest, hq, rfl⟩

/-- R144: the MESSAGE packet of a class is that of the head of its queue. -/
theorem offer_message_eq_some {c : TxClass} {q : List OutMessage}
    (h : (s.msg.offer s.number s.mem.view q).map (fun m => Tx.mk c (m.packet s.number)) = some tx) :
    ∃ m rest, q = m :: rest ∧ tx.packet = m.packet s.number := by
  obtain ⟨m, hm, rfl⟩ := Option.map_eq_some_iff.1 h
  obtain ⟨_, ⟨rest, hq⟩, _⟩ := Msg.offer_eq_some.1 hm
  exact ⟨m, rest, hq, rfl⟩

/-- R131: the request packet is that of the oldest QUEUED entry not yet sent in this possession. -/
theorem offerRequest_eq_some (h : offerRequest s = some tx) : ∃ before r after, s.att.requests = before ++ r :: after ∧
    (∀ q ∈ before, ¬ (q.state = .queued ∧ q.tag ∉ s.pos.batch.requestsSent)) ∧
    r.state = .queued ∧ r.tag ∉ s.pos.batch.requestsSent ∧ tx.packet = r.packet s.number := by
  obtain ⟨r, hr, rfl⟩ := Option.map_eq_some_iff.1 h
  obtain ⟨hp, before, after, hq, hbefore⟩ := List.find?_eq_some_iff_append.1 hr
  simp only [Bool.and_eq_true, decide_eq_true_eq, Bool.not_eq_true', List.contains_eq_mem, decide_eq_false_iff_not] at hp
  refine ⟨before, r, after, hq, fun q hqb => ?_, hp.1, hp.2, rfl⟩
  simpa [imp_iff_not_or] using hbefore q hqb

/-- R65: the INVITE packet goes to the first absent station after the cursor. -/
theorem nextAbsent_eq_some {n : Station} (h : nextAbsent s.mem.cursor s.mem.view = some n) : inSet n s.mem.view = false ∧
    ∀ m, inSet m s.mem.view = false → n - (s.mem.cursor + 1) ≤ m - (s.mem.cursor + 1) := by
  obtain ⟨hn, hle⟩ := find?_upFrom h
  simp only [Bool.not_eq_true'] at hn hle
  exact ⟨hn, hle⟩

end

/-- Settles O31: each packet as its class offers it, over the PAL as the preparation leaves it. -/
theorem grantedPacketsCarryTheirRecords : Obligations.GrantedPacketsCarryTheirRecords := by
  intro s hv hn ha hb hg t head message
  obtain ⟨pal, cpe, tx, hgrants, _, halone, hnot⟩ := choose_grants hn ha hb hg
  change Grants _ tx t at hgrants
  clear_value t
  have hdriver : t.lif.driver = .waiting tx := by rw [hgrants.frame.1]
  have offered : ∀ c, c ≠ .answer → c ≠ .handover → tx.cls = c →
      offerOf { s with att := freshReturns s, pal := pal, cpe := cpe } c = some tx ∧
      t = grant tx { s with att := freshReturns s, pal := pal, cpe := cpe } := by
    rintro _ h1 h2 rfl
    exact hgrants.of_offer h1 h2
  have hkeeps : pal.e = s.pal.e ∧ pal.owed = s.pal.owed ∧ pal.outbound = s.pal.outbound := by
    by_cases h : Alone s
    · rw [(halone h).1]; exact ⟨rfl, rfl, rfl⟩
    · rw [(hnot h).1]; exact ⟨rfl, rfl, rfl⟩
  obtain ⟨he, howed, houtbound⟩ := hkeeps
  refine ⟨tx, hdriver, fun hc => ?_, fun hc => ?_, fun hc => ?_, fun hc => ?_, fun hc => ?_, fun hc => ?_, fun hc => ?_,
    fun hc => ?_, fun hc => ?_, fun hc => ?_, fun hc => hgrants.of_handover hc⟩
  · obtain ⟨hx, _⟩ := offered .commit TxClass.noConfusion TxClass.noConfusion hc
    obtain ⟨b, hb, rfl⟩ := Option.map_eq_some_iff.1 hx
    exact ⟨b, hb, rfl⟩
  · obtain ⟨o, ho, hpacket, htpal⟩ := hgrants.of_answer hc
    have hna : ¬ Alone s := fun h => by
      have hx := (howed.symm.trans ho).symm.trans (Alone.no_answer h ha).1
      cases hx
    obtain rfl : pal = s.pal := (hnot hna).1
    obtain ⟨hfirst, hnext⟩ := s.pal.currentAnswer_eq s.agr.l
    rw [htpal]
    exact ⟨o, _, ho, rfl, hfirst, hnext, hpacket⟩
  · obtain ⟨hx, ht⟩ := offered .readReturn TxClass.noConfusion TxClass.noConfusion hc
    obtain ⟨r, rest, hq, rfl⟩ := offerReturn_eq_some hx
    rw [ht]
    exact ⟨r, rest, hq, rfl⟩
  · obtain ⟨hx, _⟩ := offered .snapshotRequest TxClass.noConfusion TxClass.noConfusion hc
    obtain ⟨⟨hresync, _, _⟩, n, hchoice, rfl⟩ := offerSnapshotRequest_eq_some.1 hx
    have hna : ¬ Alone s := fun h => by
      rw [(halone h).1] at hresync
      cases hresync
    obtain rfl : pal = s.pal := (hnot hna).1
    obtain ⟨hasked, hlowest, hnearest⟩ := choice_eq_some hchoice
    exact ⟨n, hasked, rfl, hlowest, hnearest⟩
  · obtain ⟨hx, _⟩ := offered .retry TxClass.noConfusion TxClass.noConfusion hc
    obtain ⟨m, hm, rfl⟩ := Option.map_eq_some_iff.1 hx
    exact ⟨m, (Msg.offerRetry_eq_some.1 hm).1, rfl⟩
  · exact offer_message_eq_some (offered .priority TxClass.noConfusion TxClass.noConfusion hc).1
  · exact offer_message_eq_some (offered .bulk TxClass.noConfusion TxClass.noConfusion hc).1
  · obtain ⟨hx, _⟩ := offered .palette TxClass.noConfusion TxClass.noConfusion hc
    obtain ⟨r, rest, hq, _, rfl⟩ := offerPalette_eq_some.1 hx
    rw [← he, ← houtbound]
    exact ⟨r, rest, hq, rfl⟩
  · obtain ⟨hx, _⟩ := offered .request TxClass.noConfusion TxClass.noConfusion hc
    exact offerRequest_eq_some hx
  · obtain ⟨hx, _⟩ := offered .invite TxClass.noConfusion TxClass.noConfusion hc
    obtain ⟨_, n, hnext, rfl⟩ := offerInvite_eq_some.1 hx
    obtain ⟨habsent, hnearest⟩ := nextAbsent_eq_some hnext
    exact ⟨n, habsent, rfl, hnearest⟩

end Sys2Proof.Machine
end

section
/-! PROOF. What every step keeps of the AGR, the PAL, the ATT, the MSG, the event queue and the lookups under way (O58, O59), unit by
unit, and the changes of each unit that keep it. -/

namespace Sys2Proof.Machine

/-! ### Tables with one entry for each member of a view (R79, R106, R142) -/

/-- A table in rising order that has an entry for each member of a view and for no other station. -/
structure Table.Matches {α : Type} (t : Table α) (v : StationSet) : Prop where
  sorted : Table.sorted t = true
  entries : ∀ n : Station, (Table.get? t n.val).isSome = inSet n v

namespace Table.Matches

variable {α : Type} {t : Table α} {v : StationSet}

theorem empty : Table.Matches ([] : Table α) 0 := ⟨rfl, fun n => (inSet_zero n).symm⟩

theorem ofSet (v : StationSet) (a : α) : Table.Matches (Table.ofSet v a) v :=
  ⟨Table.sorted_ofSet v a, fun n => by rw [Table.get?_ofSet]; cases inSet n v <;> rfl⟩

/-- A member's entry may be replaced. -/
theorem set (h : t.Matches v) {n : Station} (a : α) (hn : inSet n v = true) : (Table.set t n.val a).Matches v :=
  ⟨Table.sorted_set _ _ h.sorted, fun m => by
    rw [Table.get?_set]
    split
    · rename_i hm
      rw [← Fin.ext hm, hn]; rfl
    · exact h.entries m⟩

/-- A station that joins the view gets its entry. -/
theorem add (h : t.Matches v) (n : Station) (a : α) : (Table.set t n.val a).Matches (addTo n v) :=
  ⟨Table.sorted_set _ _ h.sorted, fun m => by
    rw [Table.get?_set, inSet_addTo, ← h.entries m]
    by_cases hm : n = m
    · simp [hm]
    · simp [Ne.symm hm, show ¬ n.val = m.val from fun e => hm (Fin.ext e)]⟩

/-- Stations that leave the view lose their entries. -/
theorem dropSet (h : t.Matches v) (gone : StationSet) : (Table.dropSet t gone).Matches (without v gone) :=
  ⟨Table.sorted_dropSet _ h.sorted, fun n => by
    rw [Table.get?_dropSet, inSet_without, ← h.entries n, inSet]
    cases gone.getLsbD n.val <;> simp⟩

theorem mapAll (h : t.Matches v) (f : Nat → α → α) : (t.mapAll f).Matches v :=
  ⟨Table.sorted_mapAll f h.sorted, fun n => by rw [Table.get?_mapAll, Option.isSome_map]; exact h.entries n⟩

end Table.Matches

/-- The credit records of a view: one for each member, none above a bound (R106, R142). -/
structure CreditsKept (t : Table Nat) (v : StationSet) (bound : Nat) : Prop where
  records : t.Matches v
  bounded : ∀ e ∈ t, e.2 ≤ bound

namespace CreditsKept

variable {t : Table Nat} {v : StationSet} {bound : Nat}

theorem empty : CreditsKept [] 0 bound := ⟨.empty, fun _ he => nomatch he⟩

theorem ofSet (v : StationSet) : CreditsKept (Table.ofSet v 0) v bound :=
  ⟨.ofSet v 0, fun e he => by
    obtain ⟨n, _, rfl⟩ := List.mem_map.1 he
    exact Nat.zero_le _⟩

theorem add (h : CreditsKept t v bound) (n : Station) : CreditsKept (Table.set t n.val 0) (addTo n v) bound :=
  ⟨h.records.add n 0, fun e he => by
    rcases Table.mem_set he with rfl | he
    · exact Nat.zero_le _
    · exact h.bounded e he⟩

theorem dropSet (h : CreditsKept t v bound) (gone : StationSet) : CreditsKept (Table.dropSet t gone) (without v gone) bound :=
  ⟨h.records.dropSet gone, fun e he => h.bounded e (List.mem_filter.1 he).1⟩

/-- Every record may be changed to one within the bound. -/
theorem mapAll (h : CreditsKept t v bound) {f : Nat → Nat → Nat} (hf : ∀ i c, c ≤ bound → f i c ≤ bound) :
    CreditsKept (t.mapAll f) v bound :=
  ⟨h.records.mapAll f, fun e he => by
    obtain ⟨d, hd, rfl⟩ := List.mem_map.1 he
    exact hf d.1 d.2 (h.bounded d hd)⟩

theorem setCredit (h : CreditsKept t v bound) (n : Station) {c : Nat} (hc : c ≤ bound) :
    CreditsKept (Machine.setCredit t n c) v bound :=
  h.mapAll fun i d hd => by split <;> assumption

theorem lowerAll (h : CreditsKept t v bound) : CreditsKept (Machine.lowerAll t) v bound :=
  h.mapAll fun _ c hc => (Nat.sub_le c 1).trans hc

theorem zeroOthers (h : CreditsKept t v bound) (own : Station) : CreditsKept (Machine.zeroOthers own t) v bound :=
  h.mapAll fun i c hc => by
    split
    · exact hc
    · exact Nat.zero_le _

theorem lowerFor (h : CreditsKept t v bound) (source : Station) (d : Dest) : CreditsKept (Machine.lowerFor t source d) v bound := by
  cases d with
  | station n =>
    refine h.mapAll (f := fun i c => if i = n.val then c - 1 else c) fun i c hc => ?_
    split
    · exact (Nat.sub_le c 1).trans hc
    · exact hc
  | all =>
    refine h.mapAll (f := fun i c => if i = source.val then c else c - 1) fun i c hc => ?_
    split
    · exact hc
    · exact (Nat.sub_le c 1).trans hc

end CreditsKept

/-! ### The AGR (R75, R79, R92) -/

/-- What every step keeps of the AGR: L stays at or below R and C, the wait count within its range, one readiness entry for each
member. -/
structure AgrKept (v : StationSet) (a : Agr) : Prop where
  l_le_r : a.l ≤ a.r
  l_le_c : a.l ≤ a.c
  wait : a.wait ≤ 63
  table : a.table.Matches v

namespace AgrKept

variable {v : StationSet} {a : Agr}

theorem reset : AgrKept 0 Agr.reset := ⟨BitVec.le_refl _, BitVec.le_refl _, Nat.zero_le _, .empty⟩

theorem enter (participant founding : Bool) (v : StationSet) : AgrKept v (Agr.enter participant founding v) :=
  ⟨BitVec.le_refl _, BitVec.le_refl _, Nat.zero_le _, .ofSet v _⟩

theorem noteStatus (h : AgrKept v a) {src : Station} (b : StatusBody) (hs : inSet src v = true) : AgrKept v (a.noteStatus src b) :=
  ⟨h.l_le_r, h.l_le_c, h.wait, h.table.set _ hs⟩

/-- C only rises. -/
theorem adoptC (h : AgrKept v a) (c : Seq) : AgrKept v (a.adoptC c) := by
  unfold Agr.adoptC
  split
  · rename_i hc
    exact ⟨h.l_le_r, BitVec.le_trans h.l_le_c (BitVec.le_of_lt hc), Nat.zero_le _, h.table⟩
  · exact h

theorem takeBack (h : AgrKept v a) : AgrKept v a.takeBack.1 := by
  unfold Agr.takeBack
  split
  · exact ⟨h.l_le_r, h.l_le_c, h.wait, h.table⟩
  · exact h

theorem catchUp (h : AgrKept v a) (own src : Station) (b : StatusBody) : AgrKept v (a.catchUp own src b).1 := by
  have joined : AgrKept v { a with inStep := addTo src a.inStep } := ⟨h.l_le_r, h.l_le_c, h.wait, h.table⟩
  unfold Agr.catchUp
  dsimp only
  split
  · split
    · exact joined.takeBack
    · exact joined
  · exact h

theorem rebuild (h : AgrKept v a) (own : Station) (view : StationSet) : AgrKept v (a.rebuild own view).1 := by
  have rebuilt : ∀ set, AgrKept v { a with inStep := set, known := true } := fun _ => ⟨h.l_le_r, h.l_le_c, h.wait, h.table⟩
  unfold Agr.rebuild
  dsimp only
  split
  · split
    · exact (rebuilt _).takeBack
    · exact rebuilt _
  · exact h

theorem hearStatus (h : AgrKept v a) (own : Station) (view : StationSet) {src : Station} (b : StatusBody) (hs : inSet src v = true) :
    AgrKept v (a.hearStatus own view src b).1 :=
  (((h.noteStatus b hs).adoptC b.c).catchUp own src b).rebuild own view

theorem settle (h : AgrKept v a) (own src : Station) (b : CommitBody) : AgrKept v (a.settle own src b).1 := by
  cases hg : a.agreement with
  | outside => simpa only [Agr.settle, hg] using h
  | inStep =>
    simp only [Agr.settle, hg]
    split
    · exact h
    · exact ⟨h.l_le_r, h.l_le_c, h.wait, h.table⟩
  | lagging =>
    simp only [Agr.settle, hg]
    split
    · exact h.takeBack
    · exact h

theorem hearCommit (h : AgrKept v a) (own : Station) (view : StationSet) (src : Station) (b : CommitBody) :
    AgrKept v (a.hearCommit own view src b).1 := by
  unfold Agr.hearCommit
  split
  · rename_i hc
    refine AgrKept.settle ?_ own src b
    exact ⟨h.l_le_r, BitVec.le_trans h.l_le_c (BitVec.le_of_lt hc), Nat.zero_le _, h.table⟩
  · exact h

/-- R91: L rises to R alone, and only where R is committed. -/
theorem present (h : AgrKept v a) : AgrKept v a.present := by
  unfold Agr.present
  split
  · rename_i hp
    simp only [Agr.presents, Bool.and_eq_true, decide_eq_true_eq] at hp
    exact ⟨BitVec.le_refl _, hp.2, h.wait, h.table⟩
  · exact h

theorem countWait (h : AgrKept v a) (view : StationSet) : AgrKept v (a.countWait view) := by
  refine ⟨h.l_le_r, h.l_le_c, ?_, h.table⟩
  unfold Agr.countWait
  dsimp only
  split
  · exact Nat.min_le_left _ _
  · exact Nat.zero_le _

theorem checkDeadline (h : AgrKept v a) (deadline : Nat) (view : StationSet) : AgrKept v (a.checkDeadline deadline view).1 := by
  unfold Agr.checkDeadline
  split
  · exact ⟨h.l_le_r, h.l_le_c, h.wait, h.table⟩
  · exact h

theorem pulse (h : AgrKept v a) (deadline : Nat) (view : StationSet) : AgrKept v (a.pulse deadline view).1 :=
  (h.present.countWait view).checkDeadline deadline view

theorem removeMembers (h : AgrKept v a) (gone : StationSet) : AgrKept (without v gone) (a.removeMembers gone) :=
  ⟨h.l_le_r, h.l_le_c, h.wait, h.table.dropSet gone⟩

theorem addMember (h : AgrKept v a) (n : Station) (participant : Option Bool) : AgrKept (addTo n v) (a.addMember n participant) :=
  ⟨h.l_le_r, h.l_le_c, h.wait, h.table.add n _⟩

theorem pending (h : AgrKept v a) (b : Option CommitBody) : AgrKept v { a with pendingCommit := b } :=
  ⟨h.l_le_r, h.l_le_c, h.wait, h.table⟩

end AgrKept

/-! ### The PAL (R102, R104, R106, R107, R110, R112, R117 to R121) -/

/-- The pending store, the owed answer and the answer being sent against the palette state: at most 16 records in NORMAL, none in
RESYNC, the replays appended so far in RECEIVING; an answer is owed in NORMAL alone, and one being sent is owed, has a packet still
to send, and carries no more records than are pending. -/
structure StoreKept (state : PaletteState) (store : List UpdateRecord) (install : Option Install) (owed : Option Owed)
    (answer : Option Answer) : Prop where
  normal : state = .normal → store.length ≤ storeCapacity
  resync : state = .resync → store = []
  receiving : state = .receiving → ∃ i, install = some i ∧ store.length = i.replays ∧ i.replays ≤ i.n ∧ i.n ≤ storeCapacity
  owed_normal : owed ≠ none → state = .normal
  sending : ∀ a, answer = some a → owed ≠ none ∧ a.next < 8 + a.n ∧ a.n ≤ store.length

namespace StoreKept

variable {state : PaletteState} {store : List UpdateRecord} {install : Option Install} {owed : Option Owed} {answer : Option Answer}

/-- In RESYNC the store is empty and no answer is owed. -/
theorem ofResync (install : Option Install) : StoreKept .resync [] install none none :=
  ⟨fun e => (nomatch e), fun _ => rfl, fun e => (nomatch e), fun e => absurd rfl e, fun _ e => nomatch e⟩

/-- In NORMAL a store within its capacity, with no answer being sent. -/
theorem ofNormal (hs : store.length ≤ storeCapacity) (install : Option Install) (owed : Option Owed) :
    StoreKept .normal store install owed none :=
  ⟨fun _ => hs, fun e => (nomatch e), fun e => (nomatch e), fun _ => rfl, fun _ e => nomatch e⟩

/-- In RECEIVING the replays so far stand in the store. -/
theorem ofReceiving {i : Install} (hs : store.length = i.replays) (hr : i.replays ≤ i.n) (hn : i.n ≤ storeCapacity) :
    StoreKept .receiving store (some i) none none :=
  ⟨fun e => (nomatch e), fun e => (nomatch e), fun _ => ⟨i, rfl, hs, hr, hn⟩, fun e => absurd rfl e, fun _ e => nomatch e⟩

/-- No answer is being sent where none is owed. -/
theorem no_answer (h : StoreKept state store install owed answer) (ho : owed = none) : answer = none := by
  by_contra ha
  obtain ⟨a, ha⟩ := Option.ne_none_iff_exists'.1 ha
  exact (h.sending a ha).1 ho

/-- Outside NORMAL no answer is owed or sent. -/
theorem idle (h : StoreKept state store install owed answer) (hs : state ≠ .normal) : owed = none ∧ answer = none := by
  have ho : owed = none := by
    by_contra ho; exact hs (h.owed_normal ho)
  exact ⟨ho, h.no_answer ho⟩

/-- The store is never above its capacity. -/
theorem capacity (h : StoreKept state store install owed answer) : store.length ≤ storeCapacity := by
  cases state with
  | normal => exact h.normal rfl
  | resync => rw [h.resync rfl]; exact Nat.zero_le _
  | receiving =>
    obtain ⟨i, _, hs, hr, hn⟩ := h.receiving rfl
    exact hs ▸ hr.trans hn

end StoreKept

/-- An application takes place in NORMAL, with no answer being sent (R109, R110). -/
theorem Pal.applies_iff (p : Pal) (l : Seq) : p.applies l = true ↔ p.state = .normal ∧ p.answer = none ∧ p.due l ≠ [] := by
  simp [Pal.applies, Pal.deferral, and_assoc]

/-- What every step keeps of the PAL. -/
structure PalKept (v : StationSet) (p : Pal) : Prop where
  outbound : p.outbound.length ≤ outboundCapacity
  credits : CreditsKept p.credits v storeCapacity
  bank : p.bank.wf = true
  store : StoreKept p.state p.store p.install p.owed p.answer

namespace PalKept

variable {v : StationSet} {p : Pal}

theorem installedBank (h : PalKept v p) : p.installedBank.wf = true := Memory.wf_writeAll _ h.bank

theorem stoppedBank (h : PalKept v p) : p.stoppedBank.wf = true := Memory.wf_writeAll _ (Memory.wf_writeAll _ h.bank)

/-- The credit records may change within their bound. -/
theorem withCredits (h : PalKept v p) {credits : Table Nat} {w : StationSet} (hc : CreditsKept credits w storeCapacity) :
    PalKept w { p with credits := credits } :=
  ⟨h.outbound, hc, h.bank, h.store⟩

/-- The outbound queue may change within its capacity. -/
theorem withOutbound (h : PalKept v p) {outbound : List Submission} (ho : outbound.length ≤ outboundCapacity) :
    PalKept v { p with outbound := outbound } :=
  ⟨ho, h.credits, h.bank, h.store⟩

/-- What the station asks of a candidate stands in no relation to the store. -/
theorem asking (h : PalKept v p) (candidate : Option Station) (tag : Byte) (outstanding : Bool) (wait : Timer) :
    PalKept v { p with candidate := candidate, requestTag := tag, outstanding := outstanding, wait := wait } :=
  ⟨h.outbound, h.credits, h.bank, h.store⟩

theorem beginApplication (h : PalKept v p) (l : Seq) (present : Bool) (hn : p.state = .normal) (ha : p.answer = none) :
    PalKept v (p.beginApplication l present) where
  outbound := h.outbound
  credits := h.credits
  bank := h.installedBank
  store := by
    show StoreKept p.state _ p.install p.owed p.answer
    rw [hn, ha]
    exact .ofNormal ((List.length_filter_le _ _).trans h.store.capacity) _ _

theorem pulse (h : PalKept v p) (l : Seq) (presented : Bool) : PalKept v (p.pulse l presented).1 := by
  unfold Pal.pulse
  split
  · rename_i hp
    obtain ⟨hn, ha, _⟩ := (p.applies_iff l).1 hp
    exact h.beginApplication l presented hn ha
  · split <;> exact h

/-- The answer ends: it is no longer owed, and every record then due is applied (R110). -/
theorem endAnswer (h : PalKept v p) (l : Seq) : PalKept v ({ p with owed := none }.endDeferral l) := by
  have ended : PalKept v { p with owed := none, answer := none } :=
    ⟨h.outbound, h.credits, h.bank, h.store.normal, h.store.resync, h.store.receiving, fun e => absurd rfl e, fun _ e => nomatch e⟩
  unfold Pal.endDeferral
  dsimp only
  split
  · rename_i hp
    exact ended.beginApplication l false ((Pal.applies_iff _ l).1 hp).1 rfl
  · exact ended

theorem completeApplication (h : PalKept v p) : PalKept v p.completeApplication := by
  unfold Pal.completeApplication
  split
  · exact h
  · exact ⟨h.outbound, h.credits, Memory.wf_writeAll _ h.bank, h.store⟩

theorem tick (h : PalKept v p) : PalKept v p.tick := by
  rw [Pal.tick_eq]
  exact ⟨h.outbound, h.credits, Memory.wf_writeAll _ (Memory.wf_writeAll _ h.bank), h.store⟩

theorem diverge (h : PalKept v p) : PalKept v p.diverge := ⟨Nat.zero_le _, h.credits, h.bank, .ofResync _⟩

/-- R107, R108: a record is appended in NORMAL where the store has a free place. -/
theorem append (h : PalKept v p) (r : UpdateRecord) (e : Serial) (hn : p.state = .normal) (hs : p.store.length < storeCapacity) :
    PalKept v { p.append r with e := e } where
  outbound := h.outbound
  credits := h.credits
  bank := h.bank
  store := by
    have hl : (p.store ++ [r]).length = p.store.length + 1 := by simp
    refine ⟨fun _ => ?_, fun e => ?_, fun e => ?_, h.store.owed_normal, fun a ha => ?_⟩
    · show (p.store ++ [r]).length ≤ storeCapacity
      omega
    · exact nomatch hn.symm.trans e
    · exact nomatch hn.symm.trans e
    · obtain ⟨h1, h2, h3⟩ := h.store.sending a ha
      exact ⟨h1, h2, h3.trans (by show p.store.length ≤ (p.store ++ [r]).length; omega)⟩

theorem judge_room {r : UpdateRecord} (hj : p.judge (.good r) = none) : p.store.length < storeCapacity := by
  simp only [Pal.judge] at hj
  by_contra hf
  rw [if_pos (Nat.not_lt.1 hf)] at hj
  split at hj
  · cases hj
  · split at hj <;> cases hj

theorem hearPalette (h : PalKept v p) (src : Station) (b : Payload UpdateRecord) : PalKept v (p.hearPalette src b).1 := by
  have lowered : PalKept v { p with credits := Machine.lowerAll p.credits } := h.withCredits h.credits.lowerAll
  unfold Pal.hearPalette
  dsimp only
  split
  · exact lowered
  · rename_i hn
    rw [not_not] at hn
    split
    · exact lowered.diverge
    · rename_i hj
      exact lowered.append _ _ hn (judge_room hj)
    · exact lowered

theorem hearStatus (h : PalKept v p) (src : Station) (b : StatusBody) : PalKept v (p.hearStatus src b).1 := by
  have heard := h.withCredits (h.credits.setCredit src (Nat.min_le_left storeCapacity b.paletteCredit.toNat))
  unfold Pal.hearStatus
  dsimp only
  split
  · exact heard.diverge
  · exact heard

/-- R115, R121: a request ended; in RECEIVING the installation ends with it. -/
theorem endRequest (h : PalKept v p) : PalKept v p.endRequest where
  outbound := h.outbound
  credits := h.credits
  bank := h.bank
  store := by
    cases hs : p.state with
    | receiving =>
      obtain ⟨ho, ha⟩ := h.store.idle (by rw [hs]; exact PaletteState.noConfusion)
      simp only [Pal.endRequest, hs, ho, ha]
      exact .ofResync _
    | normal =>
      have hk := h.store
      rw [hs] at hk
      simp only [Pal.endRequest, hs]
      exact ⟨hk.normal, hk.resync, fun e => (nomatch e), hk.owed_normal, hk.sending⟩
    | resync =>
      have hk := h.store
      rw [hs] at hk
      simp only [Pal.endRequest, hs]
      exact ⟨hk.normal, hk.resync, fun e => (nomatch e), hk.owed_normal, hk.sending⟩

theorem breakAnswer (h : PalKept v p) (own : Station) (k : Packet) : PalKept v (p.breakAnswer own k) := by
  rcases p.breakAnswer_cases own k with e | e
  · rw [e]; exact h
  · rw [e]; exact h.endRequest

theorem endRequestIf (h : PalKept v p) (c : Prop) [Decidable c] : PalKept v (if c then p.endRequest else p) := by
  split
  · exact h.endRequest
  · exact h

theorem breakUnreadable (h : PalKept v p) : PalKept v p.breakUnreadable := h.endRequestIf _

/-- R116: a station that declares its own bank authoritative begins with an empty store. -/
theorem declare (h : PalKept v p) (hs : p.state = .resync) : PalKept v { p with
    state := .normal, store := [], candidate := none, outstanding := false, wait := none, install := none } where
  outbound := h.outbound
  credits := h.credits
  bank := h.bank
  store := by
    show StoreKept .normal [] none p.owed p.answer
    rw [(h.store.idle (by rw [hs]; exact PaletteState.noConfusion)).2]
    exact .ofNormal (Nat.zero_le _) _ _

/-- R118: an answer that is owed begins with the records then pending. -/
theorem startAnswer (h : PalKept v p) (l : Seq) (ho : p.owed ≠ none) : PalKept v (p.startAnswer l) := by
  rw [Pal.startAnswer_eq]
  refine ⟨h.outbound, h.credits, h.bank, h.store.normal, h.store.resync, h.store.receiving, h.store.owed_normal, fun a ha => ?_⟩
  cases hp : p.answer with
  | none =>
    rw [Pal.currentAnswer, hp] at ha
    cases ha
    exact ⟨ho, by show 0 < 8 + p.store.length; omega, le_rfl⟩
  | some b =>
    rw [Pal.currentAnswer, hp] at ha
    cases ha
    exact h.store.sending _ hp

theorem answerSent (h : PalKept v p) (l : Seq) : PalKept v (p.answerSent l) := by
  unfold Pal.answerSent
  split
  · exact h
  · rename_i a ha
    split
    · rename_i hn
      obtain ⟨ho, _, hs⟩ := h.store.sending a ha
      exact ⟨h.outbound, h.credits, h.bank, h.store.normal, h.store.resync, h.store.receiving, h.store.owed_normal,
        fun _ e => by cases e; exact ⟨ho, hn, hs⟩⟩
    · exact h.endAnswer l

theorem cutAnswer (h : PalKept v p) (l : Seq) : PalKept v (p.cutAnswer l) := by
  unfold Pal.cutAnswer
  split
  · exact h
  · exact h.endAnswer l

/-- R117: an accepted request is owed its answer. -/
theorem owe (h : PalKept v p) (o : Owed) (hj : p.judgeRequest = .accepted) : PalKept v { p with owed := some o } := by
  have hs : p.state = .normal ∧ p.owed = none := by
    rw [Pal.judgeRequest] at hj
    split at hj
    · cases hj
    · rename_i hn
      split at hj
      · cases hj
      · rename_i ho
        exact ⟨not_not.1 hn, by simpa using ho⟩
  obtain ⟨hn, ho⟩ := hs
  refine ⟨h.outbound, h.credits, h.bank, ?_⟩
  show StoreKept p.state p.store p.install (some o) p.answer
  rw [hn, h.store.no_answer ho]
  exact .ofNormal h.store.capacity _ _

/-- R118, R119: an answer not yet begun may be dropped. -/
theorem dropOwed (h : PalKept v p) (lost : Station → Bool) : PalKept v (p.dropOwed lost) := by
  have hk := h.store
  refine ⟨h.outbound, h.credits, h.bank, hk.normal, hk.resync, hk.receiving, fun e => hk.owed_normal fun ho => e ?_,
    fun a ha => ?_⟩
  · cases hp : p.answer <;> simp [Pal.dropOwed, hp, ho]
  · have ho : (p.dropOwed lost).owed = p.owed := by simp only [Pal.dropOwed, show p.answer = some a from ha]
    rw [ho]
    exact hk.sending a ha

/-- R121: an installation that is complete makes the PAL NORMAL with the replays as its store. -/
theorem complete (h : PalKept v p) : PalKept v p.complete.1 := by
  unfold Pal.complete
  split
  · split
    · rename_i hc
      refine ⟨h.outbound, h.credits, h.bank, ?_⟩
      show StoreKept .normal p.store none p.owed p.answer
      rw [(h.store.idle (by rw [hc.1]; exact PaletteState.noConfusion)).2]
      exact .ofNormal h.store.capacity _ _
    · exact h
  · exact h

/-- R120: a part of the awaited answer; part 0 begins the installation, a later one goes on with it. -/
theorem hearSnapshot (h : PalKept v p) (own : Station) (hd : Head) (part : Byte) (b : Payload SnapshotBody) :
    PalKept v (p.hearSnapshot own hd part b).1 := by
  unfold Pal.hearSnapshot
  split
  · exact h
  · split
    · exact h
    · split
      · rename_i lead hs _
        obtain ⟨ho, ha⟩ := h.store.idle (by rw [hs]; exact PaletteState.noConfusion)
        have he := h.store.resync hs
        split
        · rename_i hl
          refine ⟨h.outbound, h.credits, h.installedBank, ?_⟩
          show StoreKept .receiving p.store _ p.owed p.answer
          rw [he, ho, ha]
          exact .ofReceiving rfl (Nat.zero_le _) hl.2
        · exact h
      · rename_i i hs hi
        obtain ⟨ho, ha⟩ := h.store.idle (by rw [hs]; exact PaletteState.noConfusion)
        obtain ⟨j, hj, hl, hr, hn⟩ := h.store.receiving hs
        cases hi.symm.trans hj
        refine complete ⟨h.outbound, h.credits, h.installedBank, ?_⟩
        show StoreKept p.state p.store _ p.owed p.answer
        rw [hs, ho, ha]
        exact .ofReceiving hl hr hn
      · exact h

end PalKept

/-- A REPLAY packet of the awaited answer finds a replay still to come. -/
def Pal.Awaits (p : Pal) (own : Station) (k : Packet) : Prop :=
  ∀ hd r i, k = .replay hd (.good r) → p.state = .receiving → p.ofAnswer own hd = true → p.install = some i → i.replays < i.n

/-- R121: a REPLAY packet that is not the next packet of the answer has failed the installation before the units act on it. -/
theorem Pal.awaits_breakAnswer (p : Pal) (own : Station) (k : Packet) : (p.breakAnswer own k).Awaits own k := by
  rintro hd r i rfl hs ho hi
  by_cases hr : p.state = .receiving
  · simp only [Pal.breakAnswer, hr] at hs ho hi
    split at hi
    · rename_i hn
      simp only [Pal.isNext, hi, Bool.and_eq_true, decide_eq_true_eq] at hn
      obtain ⟨_, ⟨⟨_, hlt⟩, _⟩, _⟩ := hn
      exact hlt
    · cases hi
  · rcases p.breakAnswer_cases own (.replay hd (.good r)) with e | e
    · rw [e] at hs; exact absurd hs hr
    · rw [e] at hi; cases hi

namespace PalKept

variable {v : StationSet} {p : Pal}

/-- R120: a replay of the awaited answer joins the store. -/
theorem hearReplay (h : PalKept v p) (own : Station) (hd : Head) (b : Payload UpdateRecord) (hw : p.Awaits own (.replay hd b)) :
    PalKept v (p.hearReplay own hd b).1 := by
  unfold Pal.hearReplay
  split
  · exact h
  · rename_i r
    split
    · exact h
    · rename_i hof
      split
      · rename_i i hs hi
        obtain ⟨ho, ha⟩ := h.store.idle (by rw [hs]; exact PaletteState.noConfusion)
        obtain ⟨j, hj, hl, hr, hn⟩ := h.store.receiving hs
        cases hi.symm.trans hj
        have hlt : i.replays < i.n := hw hd r i rfl hs (by simpa using hof) hi
        refine complete ⟨h.outbound, h.credits, h.bank, ?_⟩
        show StoreKept p.state (p.store ++ [r]) _ p.owed p.answer
        rw [hs, ho, ha]
        exact .ofReceiving (by simp [hl]) hlt hn
      · exact h

/-- R123: a PAL reset over a bank in its canonical form. -/
theorem reset {bank : Memory} (hb : bank.wf = true) : PalKept 0 (Pal.reset bank) := ⟨Nat.zero_le _, .empty, hb, .ofResync _⟩

theorem leave (h : PalKept v p) : PalKept 0 p.leave := ⟨Nat.zero_le _, .empty, h.bank, .ofResync _⟩

theorem enter (h : PalKept v p) (founding : Bool) (w : StationSet) : PalKept w (p.enter founding w) where
  outbound := Nat.zero_le _
  credits := .ofSet w
  bank := h.bank
  store := by
    cases founding with
    | true => exact .ofNormal (Nat.zero_le _) _ _
    | false => exact .ofResync _

theorem removeMembers (h : PalKept v p) (gone : StationSet) : PalKept (without v gone) (p.removeMembers gone) :=
  ((h.withCredits (h.credits.dropSet gone)).dropOwed (fun n => inSet n gone)).endRequestIf _

theorem addMember (h : PalKept v p) (n : Station) : PalKept (addTo n v) (p.addMember n) := h.withCredits (h.credits.add n)

theorem requestEnds (h : PalKept v p) (r : Option AckResult) : PalKept v (p.requestEnds r) := by
  unfold Pal.requestEnds
  split <;> exact ⟨h.outbound, h.credits, h.bank, h.store⟩

end PalKept

/-! ### The ATT (R130, R135) -/

/-- What every step keeps of the ATT. -/
structure AttKept (a : Att) : Prop where
  requests : a.requests.length ≤ requestCapacity
  returns : a.returns.length ≤ returnCapacity
  table : Table.sorted a.table = true

namespace AttKept

variable {a : Att}

theorem reset {table : Table AttrRecord} (ht : Table.sorted table = true) : AttKept (Att.reset table) :=
  ⟨Nat.zero_le _, Nat.zero_le _, ht⟩

theorem write (h : AttKept a) (i : Nat) (r : AttrRecord) : AttKept (a.write i r) := by
  refine ⟨h.requests, h.returns, ?_⟩
  unfold Att.write
  dsimp only
  split
  · exact Table.sorted_erase i h.table
  · exact Table.sorted_set i r h.table

/-- The entries of the request table may change one by one. -/
theorem mapRequests (h : AttKept a) (f : Request → Request) : AttKept { a with requests := a.requests.map f } :=
  ⟨by rw [List.length_map]; exact h.requests, h.returns, h.table⟩

theorem enqueue (h : AttKept a) (target : Station) (k : RequestKind) (hr : a.requests.length < requestCapacity) :
    AttKept (a.enqueue target k) :=
  ⟨by simpa [Att.enqueue] using hr, h.returns, h.table⟩

theorem slotEnds (h : AttKept a) (tag : Byte) (r : Option AckResult) (c : Bool) : AttKept (a.slotEnds tag r c).1 := by
  unfold Att.slotEnds
  split
  · exact h
  · exact h.mapRequests _

theorem hearReturn (h : AttKept a) (hd : Head) (start count : Byte) (p : Payload (List Value)) :
    AttKept (a.hearReturn hd start count p).1 := by
  unfold Att.hearReturn
  split
  · exact h
  · split
    · exact h.mapRequests _
    · exact h

theorem timeout (h : AttKept a) (tag : Byte) : AttKept (a.timeout tag).1 := by
  unfold Att.timeout
  split
  · exact h
  · split
    · exact h.mapRequests _
    · exact h

theorem failAll (h : AttKept a) (pick : Request → Bool) (why : Reason) : AttKept (a.failAll pick why).1 := h.mapRequests _

/-- R134: a finished entry leaves the request table. -/
theorem filterRequests (h : AttKept a) (keep : Request → Bool) : AttKept { a with requests := a.requests.filter keep } :=
  ⟨(List.length_filter_le _ _).trans h.requests, h.returns, h.table⟩

/-- Entries may leave the pending-return queue. -/
theorem fewerReturns (h : AttKept a) {rs : List Return} (hr : rs.length ≤ a.returns.length) : AttKept { a with returns := rs } :=
  ⟨h.requests, hr.trans h.returns, h.table⟩

theorem hearRead (h : AttKept a) (hd : Head) (start count : Byte) : AttKept (a.hearRead hd start count) := by
  unfold Att.hearRead
  split
  · rename_i hj
    refine ⟨h.requests, ?_, h.table⟩
    have hr : ¬ returnCapacity ≤ a.returns.length := by
      intro hr
      rw [Att.judgeRead, if_pos hr] at hj
      split at hj <;> cases hj
    simpa using hr
  · exact h

theorem hearWrite (h : AttKept a) (hd : Head) (i : Byte) (x : Value) : AttKept (a.hearWrite hd i x).1 := by
  unfold Att.hearWrite
  split
  · exact h.write _ _
  · exact h

theorem dropStale (h : AttKept a) (view : StationSet) : AttKept (a.dropStale view) :=
  h.fewerReturns (List.length_dropWhile_le _ _)

theorem enter (h : AttKept a) : AttKept a.enter := ⟨Nat.zero_le _, Nat.zero_le _, h.table⟩

theorem leave (h : AttKept a) : AttKept a.leave.1 := AttKept.failAll (h.fewerReturns (Nat.zero_le _)) _ _

theorem removeMembers (h : AttKept a) (gone : StationSet) : AttKept (a.removeMembers gone).1 :=
  AttKept.failAll (h.fewerReturns (List.length_filter_le _ _)) _ _

end AttKept

/-! ### The MSG (R141, R142, R151) -/

/-- What every step keeps of the MSG. -/
structure MsgKept (v : StationSet) (g : Msg) : Prop where
  priority : g.priority.length ≤ priorityCapacity
  bulk : g.bulk.length ≤ bulkCapacity
  inbound : g.inbound.length ≤ inboundCapacity
  credits : CreditsKept g.credits v inboundCapacity
  filter : Table.sorted g.filter = true

namespace MsgKept

variable {v : StationSet} {g : Msg}

theorem reset : MsgKept 0 Msg.reset := ⟨Nat.zero_le _, Nat.zero_le _, Nat.zero_le _, .empty, rfl⟩

theorem enqueue (h : MsgKept v g) (c : MessageClass) (d : Dest) (stream : BitVec 2) (ack : Bool) (payload : List Byte)
    (hf : g.full c = false) : MsgKept v (g.enqueue c d stream ack payload) := by
  cases c with
  | priority => exact ⟨by simpa [Msg.enqueue, Msg.full] using hf, h.bulk, h.inbound, h.credits, h.filter⟩
  | bulk => exact ⟨h.priority, by simpa [Msg.enqueue, Msg.full] using hf, h.inbound, h.credits, h.filter⟩

/-- The credit records may change within their bound. -/
theorem withCredits (h : MsgKept v g) {credits : Table Nat} {w : StationSet} (hc : CreditsKept credits w inboundCapacity) :
    MsgKept w { g with credits := credits } :=
  ⟨h.priority, h.bulk, h.inbound, hc, h.filter⟩

theorem hearStatus (h : MsgKept v g) (src : Station) (b : StatusBody) : MsgKept v (g.hearStatus src b) :=
  h.withCredits (h.credits.setCredit src (Nat.min_le_left _ _))

/-- Records may leave the outbound queues, for the slot, the retry record or for good. -/
theorem outgoing (h : MsgKept v g) {priority bulk : List OutMessage} (hp : priority.length ≤ g.priority.length)
    (hb : bulk.length ≤ g.bulk.length) (retry held : Option OutMessage) :
    MsgKept v { g with priority := priority, bulk := bulk, retry := retry, held := held } :=
  ⟨hp.trans h.priority, hb.trans h.bulk, h.inbound, h.credits, h.filter⟩

theorem sendHead (h : MsgKept v g) (m : OutMessage) : MsgKept v (g.sendHead m).1 := by
  unfold Msg.sendHead
  split
  · exact h.outgoing le_rfl le_rfl _ _
  · exact h

theorem sentPriority (h : MsgKept v g) : MsgKept v g.sentPriority.1 := by
  unfold Msg.sentPriority
  split
  · rename_i m rest hq
    exact sendHead (h.outgoing (by rw [hq]; exact Nat.le_succ _) le_rfl g.retry g.held) m
  · exact h

theorem sentBulk (h : MsgKept v g) : MsgKept v g.sentBulk.1 := by
  unfold Msg.sentBulk
  split
  · rename_i m rest hq
    exact sendHead (h.outgoing le_rfl (by rw [hq]; exact Nat.le_succ _) g.retry g.held) m
  · exact h

theorem sentRetry (h : MsgKept v g) : MsgKept v g.sentRetry := h.outgoing le_rfl le_rfl _ _

theorem slotEnds (h : MsgKept v g) (c : Bool) (r : Option AckResult) : MsgKept v (g.slotEnds c r).1 := by
  unfold Msg.slotEnds
  split
  · exact h.outgoing le_rfl le_rfl _ _
  · exact h.outgoing le_rfl le_rfl _ _
  · exact h

/-- R149: a message is delivered where the inbound queue has a free place. -/
theorem deliver (h : MsgKept v g) (hd : Head) (stream : BitVec 2) (payload : List Byte) (hi : g.inbound.length < inboundCapacity) :
    MsgKept v (g.deliver hd stream payload).1 := by
  refine ⟨h.priority, h.bulk, by simpa [Msg.deliver] using hi, h.credits, ?_⟩
  unfold Msg.deliver
  dsimp only
  split
  · exact h.filter
  · exact Table.sorted_set _ _ h.filter

theorem receive (h : MsgKept v g) (openStreams : BitVec 4) (hd : Head) (stream : BitVec 2) (p : Payload (List Byte)) :
    MsgKept v (g.receive openStreams hd stream p).1 := by
  unfold Msg.receive
  split
  · exact h
  · split
    · rename_i hj
      obtain ⟨hj, hr⟩ := hj
      refine h.deliver _ _ _ ?_
      simp only [Bool.not_eq_true'] at hr
      simp only [Msg.judge, hr] at hj
      by_contra hf
      rw [if_pos (Nat.not_lt.1 hf)] at hj
      split at hj <;> cases hj
    · exact h

theorem take (h : MsgKept v g) {inbound : List InMessage} (hi : inbound.length ≤ g.inbound.length) :
    MsgKept v { g with inbound := inbound } :=
  ⟨h.priority, h.bulk, hi.trans h.inbound, h.credits, h.filter⟩

theorem enter (h : MsgKept v g) (w : StationSet) : MsgKept w (g.enter w) :=
  ⟨Nat.zero_le _, Nat.zero_le _, h.inbound, .ofSet w, rfl⟩

theorem leave (h : MsgKept v g) : MsgKept 0 g.leave.1 := ⟨Nat.zero_le _, Nat.zero_le _, h.inbound, .empty, rfl⟩

theorem removeMembers (h : MsgKept v g) (gone : StationSet) : MsgKept (without v gone) (g.removeMembers gone).1 :=
  ⟨(List.length_filter_le _ _).trans h.priority, (List.length_filter_le _ _).trans h.bulk, h.inbound, h.credits.dropSet gone,
    Table.sorted_dropSet _ h.filter⟩

theorem addMember (h : MsgKept v g) (n : Station) : MsgKept (addTo n v) (g.addMember n) := h.withCredits (h.credits.add n)

end MsgKept

end Sys2Proof.Machine
end

section
/-! PROOF. The membership, the scheduler, the reply slot and what the units do with each packet keep the invariants of O58 and O59. -/

namespace Sys2Proof.Machine

/-! ### The units of one station together -/

/-- What every step keeps of the units, against a view. -/
structure UnitsKept (v : StationSet) (a : Agr) (p : Pal) (q : Att) (g : Msg) (events : List EventRecord) (lookups : List Color) :
    Prop where
  agr : AgrKept v a
  pal : PalKept v p
  att : AttKept q
  msg : MsgKept v g
  events : events.length ≤ eventCapacity
  lookups : lookups.length ≤ 2

/-- The units of a station keep to a view, its own or one it is about to have. -/
def State.KeptAt (v : StationSet) (s : State) : Prop := UnitsKept v s.agr s.pal s.att s.msg s.cpe.events s.outputs.lookups

/-- What every step keeps of a station (O58, O59). -/
def State.Kept (s : State) : Prop := s.KeptAt s.mem.view

namespace State.KeptAt

variable {v : StationSet} {s : State}

theorem onAgr (h : s.KeptAt v) {f : Agr → Agr} (hf : AgrKept v (f s.agr)) : (s.onAgr f).KeptAt v :=
  ⟨hf, h.pal, h.att, h.msg, h.events, h.lookups⟩

theorem onPal (h : s.KeptAt v) {f : Pal → Pal} (hf : PalKept v (f s.pal)) : (s.onPal f).KeptAt v :=
  ⟨h.agr, hf, h.att, h.msg, h.events, h.lookups⟩

theorem onAtt (h : s.KeptAt v) {f : Att → Att} (hf : AttKept (f s.att)) : (s.onAtt f).KeptAt v :=
  ⟨h.agr, h.pal, hf, h.msg, h.events, h.lookups⟩

theorem onMsg (h : s.KeptAt v) {f : Msg → Msg} (hf : MsgKept v (f s.msg)) : (s.onMsg f).KeptAt v :=
  ⟨h.agr, h.pal, h.att, hf, h.events, h.lookups⟩

theorem pushEvents_length (es : List EventRecord) {q : List EventRecord} (hq : q.length ≤ eventCapacity) :
    (es.foldl pushEvent q).length ≤ eventCapacity := by
  induction es generalizing q with
  | nil => exact hq
  | cons e es ih => exact ih (pushEvent_length e hq)

theorem raise (h : s.KeptAt v) (e : EventRecord) : (s.raise e).KeptAt v :=
  ⟨h.agr, h.pal, h.att, h.msg, pushEvent_length e h.events, h.lookups⟩

theorem raiseAll (h : s.KeptAt v) (es : List EventRecord) : (s.raiseAll es).KeptAt v := by
  rw [State.raiseAll_eq]
  exact ⟨h.agr, h.pal, h.att, h.msg, pushEvents_length es h.events, h.lookups⟩

theorem raiseBoth (h : s.KeptAt v) (xs ys : List EventRecord) : (s.raiseBoth xs ys).KeptAt v := h.raiseAll _

/-- Members removed: the units keep to the view without them. -/
theorem membersGone (h : s.KeptAt v) (gone : StationSet) : (Machine.membersGone gone s).KeptAt (without v gone) := by
  refine State.KeptAt.raiseBoth ?_ _ _
  exact ⟨h.agr.removeMembers gone, h.pal.removeMembers gone, h.att.removeMembers gone, h.msg.removeMembers gone, h.events, h.lookups⟩

/-- A member added: the units keep to the view with it. -/
theorem memberCame (h : s.KeptAt v) (participant : Option Bool) (n : Station) :
    (Machine.memberCame participant s n).KeptAt (addTo n v) :=
  ⟨h.agr.addMember n participant, h.pal.addMember n, h.att, h.msg.addMember n, h.events, h.lookups⟩

theorem membersCame (h : s.KeptAt v) (participant : Option Bool) (ns : List Station) :
    (ns.foldl (Machine.memberCame participant) s).KeptAt (ns.foldl (fun w n => addTo n w) v) := by
  induction ns generalizing s v with
  | nil => exact h
  | cons n ns ih => exact ih (h.memberCame participant n)

end State.KeptAt

/-- A set with a list of stations added, one by one. -/
theorem inSet_foldl_addTo (m : Station) (ns : List Station) (v : StationSet) :
    inSet m (ns.foldl (fun w n => addTo n w) v) = (inSet m v || decide (m ∈ ns)) := by
  induction ns generalizing v with
  | nil => simp
  | cons n ns ih => rw [List.foldl_cons, ih, inSet_addTo]; simp [Bool.or_assoc]

/-- A view is the old one without those that left and with those that came. -/
theorem newView_eq (old v : StationSet) :
    (members (without v old)).foldl (fun w n => addTo n w) (without old (without old v)) = v := by
  refine set_ext fun n => ?_
  rw [inSet_foldl_addTo, inSet_without, inSet_without]
  have hm : n ∈ members (without v old) ↔ inSet n v = true ∧ inSet n old = false := by simp [mem_members, inSet_without]
  cases hv : inSet n v <;> cases ho : inSet n old <;> simp [hm, hv, ho]

namespace State.Kept

variable {s : State}

theorem onAgr (h : s.Kept) {f : Agr → Agr} (hf : AgrKept s.mem.view (f s.agr)) : (s.onAgr f).Kept := State.KeptAt.onAgr h hf
theorem onPal (h : s.Kept) {f : Pal → Pal} (hf : PalKept s.mem.view (f s.pal)) : (s.onPal f).Kept := State.KeptAt.onPal h hf
theorem onAtt (h : s.Kept) {f : Att → Att} (hf : AttKept (f s.att)) : (s.onAtt f).Kept := State.KeptAt.onAtt h hf
theorem onMsg (h : s.Kept) {f : Msg → Msg} (hf : MsgKept s.mem.view (f s.msg)) : (s.onMsg f).Kept := State.KeptAt.onMsg h hf
theorem raise (h : s.Kept) (e : EventRecord) : (s.raise e).Kept := State.KeptAt.raise h e

/-- Raising events keeps the view, so the units keep to it. -/
theorem ofView {t : State} {v : StationSet} (h : t.KeptAt v) (hv : t.mem.view = v) : t.Kept := by
  rw [State.Kept, hv]; exact h

theorem raiseAll (h : s.Kept) (es : List EventRecord) : (s.raiseAll es).Kept :=
  ofView (State.KeptAt.raiseAll h es) (by rw [((SameCore.refl s).raiseAll es).mem])

theorem raiseBoth (h : s.Kept) (xs ys : List EventRecord) : (s.raiseBoth xs ys).Kept :=
  ofView (State.KeptAt.raiseBoth h xs ys) (by rw [((SameCore.refl s).raiseBoth xs ys).mem])

/-! ### The membership (R61, R62, R67 to R70, R73) -/

theorem adopt (h : s.Kept) (v : StationSet) : (Machine.adopt v s).Kept := by
  refine ofView (v := v) ?_ (by rw [(adopt_core v s).mem]; rfl)
  have hs : (s.setView v).KeptAt s.mem.view := h
  have hg := ((hs.raiseAll ((members (without s.mem.view v)).map (removedEvent none) ++
    (members (without v s.mem.view)).map addedEvent)).membersGone (without s.mem.view v)).membersCame none
      (members (without v s.mem.view))
  rw [newView_eq] at hg
  exact hg

theorem addJoiner (h : s.Kept) (n : Station) (participant : Bool) : (Machine.addJoiner n participant s).Kept :=
  State.KeptAt.memberCame (State.KeptAt.raise (s := s.setView (addTo n s.mem.view)) (v := s.mem.view) h (addedEvent n)) _ n

theorem removeSilent (h : s.Kept) (n : Station) : (Machine.removeSilent n s).Kept := by
  refine ofView (v := without s.mem.view (single n)) ?_ (by rw [(removeSilent_core n s).mem]; rfl)
  exact State.KeptAt.membersGone (State.KeptAt.raise (s := s.setView (removeFrom n s.mem.view)) h _) (single n)

theorem enterView (h : s.Kept) (founding : Bool) (v : StationSet) (joined : EventRecord) :
    (Machine.enterView founding v joined s).Kept :=
  ⟨AgrKept.enter _ _ _, h.pal.enter founding v, h.att.enter, h.msg.enter v, pushEvent_length joined h.events, h.lookups⟩

theorem leaveUnits (h : s.Kept) : (Machine.leaveUnits s).Kept := by
  refine State.Kept.raiseAll (State.Kept.raiseAll ?_ _) _
  exact ⟨AgrKept.reset, h.pal.leave, h.att.leave, h.msg.leave, h.events, h.lookups⟩

theorem dropped (h : s.Kept) (source : Station) : (Machine.dropped source s).Kept :=
  leaveUnits (State.Kept.raise (s := (s.setLife .joinPending).onMem (fun m => { m with joinPending := true })) h _)

theorem leftWall (h : s.Kept) : (Machine.leftWall s).Kept :=
  leaveUnits (State.Kept.raise (s := (s.setLife .standby).onMem (fun m => { m with joinPending := false })) h _)

theorem halt (h : s.Kept) : (Machine.halt s).Kept := by
  have hh := State.Kept.raise (s := (s.setLife .halted).onMem (fun m => { m with joinPending := false })) h
    { kind := .halted, reason := some .duplicateNumber }
  unfold Machine.halt
  dsimp only
  split
  · exact leaveUnits hh
  · exact hh

theorem handoverMembership (h : s.Kept) (hd : Head) (v : StationSet) : (Machine.handoverMembership hd v s).Kept := by
  cases hl : s.startup.life with
  | joinPending =>
    simp only [Machine.handoverMembership, hl]
    split
    · exact h.enterView _ _ _
    · exact h
  | member =>
    simp only [Machine.handoverMembership, hl]
    split
    · exact h.adopt v
    · exact h.dropped _
  | leaving =>
    simp only [Machine.handoverMembership, hl]
    split
    · exact h.adopt v
    · exact h.leftWall
  | unconfigured => simpa only [Machine.handoverMembership, hl] using h
  | standby => simpa only [Machine.handoverMembership, hl] using h
  | halted => simpa only [Machine.handoverMembership, hl] using h

/-! ### The scheduler (R39, R40, R116, R118, R136) -/

theorem declareAuthority (h : s.Kept) : (Machine.declareAuthority s).Kept := by
  unfold Machine.declareAuthority
  split
  · rename_i hs
    simp only [selfAuthority, Bool.and_eq_true, beq_iff_eq] at hs
    obtain ⟨⟨⟨⟨_, hs⟩, _⟩, _⟩, _⟩ := hs
    exact State.Kept.raise (h.onPal (h.pal.declare hs)) _
  · exact h

/-- The scheduler begins an answer that is owed, or goes on with one. -/
theorem grantAnswer (h : s.Kept) (ho : s.pal.owed ≠ none) : (Machine.grantAnswer s).Kept := by
  have ha : (s.onPal (fun p => p.startAnswer s.agr.l)).Kept := h.onPal (h.pal.startAnswer s.agr.l ho)
  unfold Machine.grantAnswer
  dsimp only
  split <;> exact ha

theorem owed_of_offered (h : s.Kept) (ha : answerOffered s = true) : s.pal.owed ≠ none := by
  intro ho
  simp [answerOffered, h.pal.store.no_answer ho, ho] at ha

theorem chooseAmong (h : s.Kept) : (Machine.chooseAmong s).Kept := by
  unfold Machine.chooseAmong
  split
  · rename_i ha
    exact h.grantAnswer (h.owed_of_offered (by simp [answerOffered, ha]))
  · split
    · exact h
    · split
      · exact h
      · split
        · rename_i ha
          exact h.grantAnswer (h.owed_of_offered ha)
        · split <;> exact h

/-- A choice of the scheduler: the packet is handed to the LIF, stale returns are dropped, an owed answer may begin. -/
theorem choose (h : s.Kept) : (Machine.choose s).Kept := by
  have hd : (s.onAtt (fun a => a.dropStale s.mem.view)).Kept := h.onAtt (h.att.dropStale s.mem.view)
  unfold Machine.choose choosePacket
  split
  · unfold chooseLeaving
    split <;> exact hd
  · split
    · exact hd.declareAuthority.chooseAmong
    · split <;> exact hd

theorem beginPossession (h : s.Kept) : (Machine.beginPossession s).Kept := choose (s := enterPossessing s) h

theorem onHandover (h : s.Kept) (hd : Head) (v : StationSet) : (Machine.onHandover hd v s).Kept := by
  have hm := h.handoverMembership hd v
  unfold Machine.onHandover beginIfNamed
  split
  · exact hm.beginPossession
  · exact hm

/-! ### The reply slot (R42, R43) -/

theorem slotOutcome (h : s.Kept) (sl : Slot) (r : SlotResult) : (Machine.slotOutcome sl r s).Kept := by
  have emptied : (s.onPos (fun p => { p with slot := none })).Kept := h
  have ended : (if r.result = some .queueFull then
      (s.onPos (fun p => { p with slot := none })).onMsg (fun g => { g with credits := setCredit g.credits sl.target 0 })
      else s.onPos (fun p => { p with slot := none })).Kept := by
    split
    · exact emptied.onMsg (h.msg.withCredits (h.msg.credits.setCredit sl.target (Nat.zero_le _)))
    · exact emptied
  unfold Machine.slotOutcome
  dsimp only
  split
  · split
    · exact ended.addJoiner _ _
    · exact ended
    · exact ended
  · exact ended.onPal (ended.pal.requestEnds _)
  · exact State.Kept.raiseAll (ended.onAtt (ended.att.slotEnds _ _ _)) _
  · exact State.Kept.raiseAll (ended.onMsg (ended.msg.slotEnds _ _)) _

theorem resume (h : s.Kept) (sl : Slot) (r : SlotResult) : (resumePossession (Machine.slotOutcome sl r s)).Kept :=
  choose (s := (Machine.slotOutcome sl r s).setPossession .possessing) (h.slotOutcome sl r)

/-! ### What the units do with each packet -/

theorem onStatus (h : s.Kept) (hd : Head) (p : Payload StatusBody) : (Machine.onStatus hd p s).Kept := by
  unfold Machine.onStatus
  split
  · rename_i hc
    have hs : inSet hd.source s.mem.view = true := (Bool.and_eq_true_iff.1 hc).2
    split
    · refine State.Kept.raiseBoth ?_ _ _
      exact ⟨h.agr.hearStatus _ _ _ hs, h.pal.hearStatus _ _, h.att, h.msg.hearStatus _ _, h.events, h.lookups⟩
    · exact ⟨h.agr, h.pal.withCredits (h.pal.credits.setCredit _ (Nat.zero_le _)), h.att,
        h.msg.withCredits (h.msg.credits.setCredit _ (Nat.zero_le _)), h.events, h.lookups⟩
  · exact h

theorem onCommit (h : s.Kept) (hd : Head) (p : Payload CommitBody) : (Machine.onCommit hd p s).Kept := by
  unfold Machine.onCommit
  split
  · split
    · exact State.Kept.raiseAll (h.onAgr (h.agr.hearCommit _ _ _ _)) _
    · exact h
  · exact h

theorem onPalette (h : s.Kept) (hd : Head) (p : Payload UpdateRecord) : (Machine.onPalette hd p s).Kept := by
  unfold Machine.onPalette
  split
  · exact State.Kept.raiseAll (h.onPal (h.pal.hearPalette _ _)) _
  · exact h

theorem onSnapshotRequest (h : s.Kept) (hd : Head) : (Machine.onSnapshotRequest hd s).Kept := by
  unfold Machine.onSnapshotRequest
  split
  · have owed : (s.onPal (fun p => if p.judgeRequest = .accepted then
        { p with owed := some { requester := hd.source, tag := hd.tag } } else p)).Kept := by
      refine h.onPal ?_
      split
      · rename_i hj
        exact h.pal.owe _ hj
      · exact h.pal
    exact owed
  · exact h

theorem onSnapshot (h : s.Kept) (hd : Head) (part : Byte) (p : Payload SnapshotBody) : (Machine.onSnapshot hd part p s).Kept := by
  unfold Machine.onSnapshot
  split
  · exact State.Kept.raiseAll (h.onPal (h.pal.hearSnapshot _ _ _ _)) _
  · exact h

theorem onReplay (h : s.Kept) (hd : Head) (p : Payload UpdateRecord)
    (hw : s.inView = true → s.pal.Awaits s.number (.replay hd p)) : (Machine.onReplay hd p s).Kept := by
  unfold Machine.onReplay
  split
  · rename_i hv
    exact State.Kept.raiseAll (h.onPal (h.pal.hearReplay _ _ _ (hw hv))) _
  · exact h

theorem lowerMessageCredits (h : s.Kept) (hd : Head) : (Machine.lowerMessageCredits hd s).Kept :=
  h.onMsg (h.msg.withCredits (h.msg.credits.lowerFor _ _))

theorem onMessage (h : s.Kept) (hd : Head) (ack : Bool) (stream : BitVec 2) (p : Payload (List Byte)) :
    (Machine.onMessage hd ack stream p s).Kept := by
  have lowered := h.lowerMessageCredits hd
  have delivered : (deliverMessage hd stream p (Machine.lowerMessageCredits hd s)).Kept := by
    unfold deliverMessage
    split
    · exact State.Kept.raiseAll (lowered.onMsg (lowered.msg.receive _ _ _ _)) _
    · exact lowered
  unfold Machine.onMessage
  split
  · dsimp only
    split <;> exact delivered
  · exact h

theorem onRead (h : s.Kept) (hd : Head) (start count : Byte) : (Machine.onRead hd start count s).Kept := by
  unfold Machine.onRead
  split
  · exact h.onAtt (h.att.hearRead hd start count)
  · exact h

theorem onWrite (h : s.Kept) (hd : Head) (i : Byte) (x : Value) : (Machine.onWrite hd i x s).Kept := by
  unfold Machine.onWrite
  split
  · exact State.Kept.raiseAll (h.onAtt (h.att.hearWrite hd i x)) _
  · exact h

theorem onReadReturn (h : s.Kept) (hd : Head) (start count : Byte) (p : Payload (List Value)) :
    (Machine.onReadReturn hd start count p s).Kept := by
  unfold Machine.onReadReturn
  split
  · exact State.Kept.raiseAll (h.onAtt (h.att.hearReturn _ _ _ _)) _
  · exact h

/-- R24: the units act on a readable packet; a replay of an awaited answer has been judged before (R121). -/
theorem actOn (h : s.Kept) (k : Packet) (hw : s.inView = true → s.pal.Awaits s.number k) : (Machine.actOn k s).Kept := by
  cases k with
  | handover hd a v f => exact h.onHandover hd v
  | claim hd f => exact h
  | invite hd f =>
    show (onInvite hd s).Kept
    unfold onInvite
    split <;> exact h
  | join hd p f => exact h
  | leave hd f => exact h
  | status hd p => exact h.onStatus hd p
  | commit hd p => exact h.onCommit hd p
  | palette hd p => exact h.onPalette hd p
  | snapshotRequest hd f => exact h.onSnapshotRequest hd
  | snapshot hd part p => exact h.onSnapshot hd part p
  | replay hd p => exact h.onReplay hd p hw
  | message hd a st p => exact h.onMessage hd a st p
  | read hd a n f => exact h.onRead hd a n
  | write hd i x f => exact h.onWrite hd i x
  | readReturn hd a n p => exact h.onReadReturn hd a n p
  | ack hd r c f => exact h

/-! ### Hearing (R25, R42, R43, R121) -/

theorem conflict (h : s.Kept) (sl : Slot) : (Machine.conflict sl s).Kept := h.slotOutcome sl .noReply

end State.Kept

/-- A possession conflict leaves the awaited answer as it was, or ends the request for it. -/
theorem Pal.awaits_conflict {s : State} {k : Packet} (sl : Slot) (hw : s.inView = true → s.pal.Awaits s.number k) :
    (Machine.conflict sl s).inView = true → (Machine.conflict sl s).pal.Awaits (Machine.conflict sl s).number k := by
  obtain ⟨_, _, c⟩ := slotOutcome_core sl .noReply s
  have hu : (Machine.conflict sl s).startup = s.startup := c.startup
  have hc : (Machine.conflict sl s).pal = if sl.owner = .snapshotRequest then { s.pal with outstanding := false } else s.pal :=
    (slotOutcome_noReply sl s).2
  rw [State.inView, State.number, hu, hc]
  intro hv
  split
  · intro hd r i _ _ ho
    simp [Pal.ofAnswer] at ho
  · exact hw hv

namespace State.Kept

variable {s : State}

theorem throughSlot (h : s.Kept) (k : Packet) (hw : s.inView = true → s.pal.Awaits s.number k) :
    (Machine.throughSlot k (Machine.actOn k) s).Kept := by
  unfold Machine.throughSlot
  split
  · rename_i sl _
    split
    · split
      · exact h.resume sl _
      · exact (h.conflict sl).actOn k (Pal.awaits_conflict sl hw)
    · exact h.actOn k hw
  · exact h.actOn k hw

theorem hearReadable (h : s.Kept) (k : Packet) : (Machine.hearReadable k (Machine.actOn k) s).Kept := by
  unfold Machine.hearReadable
  split
  · exact h.halt
  · cases hv : s.inView with
    | true =>
      rw [if_pos rfl]
      refine State.Kept.throughSlot (h.onPal (h.pal.breakAnswer s.number k)) k fun _ => ?_
      exact s.pal.awaits_breakAnswer s.number k
    | false =>
      rw [if_neg Bool.false_ne_true]
      exact h.throughSlot k fun e => absurd (hv.symm.trans e) Bool.false_ne_true

theorem unreadableInSlot (h : s.Kept) : (Machine.unreadableInSlot s).Kept := by
  unfold Machine.unreadableInSlot
  split
  · split
    · exact h.resume _ _
    · exact h
  · exact h

theorem hearUnreadable (h : s.Kept) : (Machine.hearUnreadable s).Kept := by
  refine State.Kept.unreadableInSlot ?_
  split
  · exact ⟨h.agr, PalKept.breakUnreadable (h.pal.withCredits (h.pal.credits.zeroOthers _)), h.att,
      h.msg.withCredits (h.msg.credits.zeroOthers _), h.events, h.lookups⟩
  · exact h

theorem unitsHear (h : s.Kept) (hd : Heard) : (Machine.unitsHear hd (actOnHeard hd) s).Kept := by
  have hn : (notePacket (classesOf hd) s).Kept := h
  unfold Machine.unitsHear
  dsimp only
  split
  · exact hn
  · cases hd with
    | unreadable e => exact hn.hearUnreadable
    | readable k => exact hn.hearReadable k

theorem hear (h : s.Kept) (hd : Heard) : (Machine.hear hd (actOnHeard hd) s).Kept := by
  unfold Machine.hear
  split
  · exact State.Kept.unitsHear (s := s.onLif _) h hd
  · exact h

theorem rearm (h : s.Kept) (judged : Option Heard) : (Machine.rearm judged s).Kept := by
  have hr : (s.onLif Lif.rearm).Kept := h
  unfold Machine.rearm
  split
  · exact hr
  · split
    · exact hr.unitsHear _
    · exact hr

end State.Kept

end Sys2Proof.Machine
end

section
/-! PROOF. Sending, the windows, the resets, the commands and the clock keep the invariants of O58 and O59, which are thereby settled. -/

namespace Sys2Proof.Machine

namespace State.Kept

variable {s : State}

/-! ### Sending and contention (R29, R50, R51) -/

theorem sentBy (h : s.Kept) (tx : Tx) : (Machine.sentBy tx s).Kept := by
  have sent : ((s.onLif Lif.sent).onPos (fun p => p.countSent tx.cls)).Kept := h
  unfold Machine.sentBy
  dsimp only
  split
  · exact sent.onPal (h.pal.breakAnswer _ _)
  · exact sent

theorem messageSent (h : s.Kept) (hd : Head) (ack : Bool) {take : Msg → Msg × List EventRecord}
    (ht : ∀ v g, MsgKept v g → MsgKept v (take g).1) : (Machine.messageSent hd ack take s).Kept := by
  have lowered := h.lowerMessageCredits hd
  have taken : (((Machine.lowerMessageCredits hd s).onMsg (fun _ => (take (Machine.lowerMessageCredits hd s).msg).1)).raiseAll
      (take (Machine.lowerMessageCredits hd s).msg).2).Kept :=
    State.Kept.raiseAll (lowered.onMsg (ht _ _ lowered.msg)) _
  unfold Machine.messageSent
  dsimp only
  split
  · exact taken
  · exact taken.choose

/-- R85, R118: the station's own STATUS packet. -/
theorem statusSent (h : s.Kept) (hd : Head) (p : Payload StatusBody) : (Machine.statusSent hd p s).Kept := by
  have hs := h.onStatus hd p
  have ha := hs.onAgr (f := fun a => { a with
    pendingCommit := if (Machine.onStatus hd p s).startup.life = .member then
      a.decision (Machine.onStatus hd p s).cfg (Machine.onStatus hd p s).mem.view else none }) (hs.agr.pending _)
  exact ha.onPal (ha.pal.dropOwed _)

theorem leaveSent (h : s.Kept) : (Machine.leaveSent s).Kept := by
  unfold Machine.leaveSent
  split
  · exact h.leftWall
  · exact choose (s := s.onPos _) h

theorem requestSent (h : s.Kept) (hd : Head) : (Machine.requestSent hd s).Kept := by
  have sent : (s.onAtt (fun a => a.update hd.tag (fun r => { r with attempts := r.attempts + 1 }))).Kept :=
    h.onAtt (h.att.mapRequests _)
  unfold Machine.requestSent
  dsimp only
  split <;> exact sent

theorem snapshotRequestSent (h : s.Kept) (hd : Head) : (Machine.snapshotRequestSent hd s).Kept := by
  unfold Machine.snapshotRequestSent
  split
  · rename_i d _
    have asked : (s.onPal (fun p => { p with candidate := some d, requestTag := hd.tag })).Kept :=
      h.onPal (h.pal.asking _ _ _ _)
    exact asked
  · exact h

/-- What follows a packet sent, class by class. -/
theorem afterSent (h : s.Kept) (c : TxClass) (k : Packet) : (Machine.afterSent c k s).Kept := by
  unfold Machine.afterSent
  split
  · exact h.choose
  · exact (h.statusSent _ _).choose
  · have hc := h.onCommit
    exact choose (State.Kept.onAgr (hc _ _) ((hc _ _).agr.pending none))
  · exact choose (h.onPal (h.pal.answerSent _))
  · exact choose (h.onAtt (h.att.fewerReturns (by rw [List.length_tail]; exact Nat.sub_le _ _)))
  · exact h.snapshotRequestSent _
  · exact h.messageSent _ _ fun _ _ hg => hg.sentRetry
  · exact h.messageSent _ _ fun _ _ hg => hg.sentPriority
  · exact h.messageSent _ _ fun _ _ hg => hg.sentBulk
  · refine choose (State.Kept.onPalette (h.onPal (h.pal.withOutbound ?_)) _ _)
    rw [List.length_tail]
    exact (Nat.sub_le _ _).trans h.pal.outbound
  · exact h.requestSent _
  · unfold Machine.inviteSent
    split <;> exact h
  · exact h
  · exact h.leaveSent
  · exact h.leftWall
  · exact h
  · exact h

theorem packetSent (h : s.Kept) (tx : Tx) : (Machine.packetSent tx s).Kept := (h.sentBy tx).afterSent _ _

theorem contend (h : s.Kept) (kind : DriveFault) : (Machine.contend kind s).Kept := by
  refine State.Kept.raise ?_ _
  exact ⟨h.agr.pending none, h.pal.cutAnswer _, h.att, h.msg, h.events, h.lookups⟩

/-! ### The windows and the silences (R35, R36, R42, R47, R48, R70) -/

theorem windowEnds (h : s.Kept) (run : HandoverRun) : (Machine.windowEnds run s).Kept := by
  unfold Machine.windowEnds
  split
  · exact h.beginPossession
  · split
    · exact h
    · have removed := h.removeSilent run.successor
      unfold passOver
      generalize Machine.removeSilent run.successor s = r at removed
      exact removed

/-! ### Resets (R1, R2, R12) -/

/-- A station in the state that a reset gives its units, over a bank and attributes in form. -/
theorem unitsReset {bank : Memory} (hb : bank.wf = true) {table : Table AttrRecord} (ht : Table.sorted table = true)
    (e : EventRecord) {lookups : List Color} (hl : lookups.length ≤ 2) :
    UnitsKept 0 Agr.reset (Pal.reset bank) (Att.reset table) Msg.reset [e] lookups :=
  ⟨.reset, .reset hb, .reset ht, .reset, Nat.succ_le_succ (Nat.zero_le _), hl⟩

theorem holdReset (h : s.Kept) : (Machine.holdReset s).Kept :=
  ⟨h.agr, ⟨h.pal.outbound, h.pal.credits, h.pal.stoppedBank, h.pal.store⟩, h.att, h.msg, Nat.zero_le _, Nat.zero_le _⟩

theorem endReset (straps : Straps) (s : State) : (Machine.endReset straps s).Kept := unitsReset rfl rfl _ (Nat.zero_le _)

theorem stationReset (h : s.Kept) : (Machine.stationReset s).Kept := unitsReset h.pal.stoppedBank h.att.table _ h.lookups

/-! ### The commands (R76, R104, R128, R130, R134, R141, R151, R168) -/

/-- A command that keeps the units keeps them with its response held. -/
theorem takeCommand (h : s.Kept) {f : State → State × Response} (hf : (f s).1.Kept) : (Machine.takeCommand f s).Kept := by
  unfold Machine.takeCommand
  split
  · exact hf
  · exact h

theorem readyCommand (h : s.Kept) (n : Seq) : (Machine.readyCommand n s).1.Kept := by
  unfold Machine.readyCommand
  split
  · exact h
  · split
    · exact h
    · rename_i hn
      rw [not_or] at hn
      exact h.onAgr (f := fun a => { a with r := n }) ⟨BitVec.le_of_lt (BitVec.not_le.1 hn.1), h.agr.l_le_c, h.agr.wait, h.agr.table⟩

theorem submitPaletteCommand (h : s.Kept) (e : Seq) (start : BitVec 16) (ws : List Value) :
    (Machine.submitPaletteCommand e start ws s).1.Kept := by
  unfold Machine.submitPaletteCommand
  split
  · exact h
  · split
    · exact h
    · split
      · exact h
      · rename_i hf
        exact h.onPal (h.pal.withOutbound (by simpa using hf))

theorem readPaletteCommand (h : s.Kept) (start : BitVec 16) (n : Byte) : (Machine.readPaletteCommand start n s).1.Kept := by
  unfold Machine.readPaletteCommand
  split <;> exact h

theorem readReadinessCommand (h : s.Kept) (n : Byte) : (Machine.readReadinessCommand n s).1.Kept := by
  unfold Machine.readReadinessCommand
  split <;> exact h

theorem readAttributeCommand (h : s.Kept) (start n : Byte) : (Machine.readAttributeCommand start n s).1.Kept := by
  unfold Machine.readAttributeCommand
  split <;> exact h

theorem takeEventCommand (h : s.Kept) : (Machine.takeEventCommand s).1.Kept := by
  unfold Machine.takeEventCommand
  split
  · exact h
  · rename_i e rest he
    refine ⟨h.agr, h.pal, h.att, h.msg, ?_, h.lookups⟩
    have hl := h.events
    rw [he, List.length_cons] at hl
    exact (Nat.le_succ _).trans hl

theorem takeMessageCommand (h : s.Kept) : (Machine.takeMessageCommand s).1.Kept := by
  unfold Machine.takeMessageCommand
  split
  · exact h
  · rename_i m rest hm
    exact h.onMsg (h.msg.take (by rw [hm]; exact Nat.le_succ _))

theorem sendMessageCommand (h : s.Kept) (d st k c : Byte) (payload : List Byte) :
    (Machine.sendMessageCommand d st k c payload s).1.Kept := by
  unfold Machine.sendMessageCommand
  split
  · exact h
  · split
    · exact h
    · split
      · split
        · exact h
        · split
          · exact h
          · rename_i hf
            exact h.onMsg (h.msg.enqueue _ _ _ _ _ (by simpa using hf))
      · exact h

theorem writeAttributeCommand (h : s.Kept) (i : Byte) (x : Value) : (Machine.writeAttributeCommand i x s).1.Kept := by
  unfold Machine.writeAttributeCommand
  split
  · exact h
  · split
    · exact h
    · exact h.onAtt (h.att.write _ _)

theorem remoteCommand (h : s.Kept) (target : Byte) (inRange : Bool) (k : RequestKind) :
    (Machine.remoteCommand target inRange k s).1.Kept := by
  unfold Machine.remoteCommand
  split
  · exact h
  · split
    · exact h
    · split
      · exact h
      · split
        · exact h
        · split
          · exact h
          · rename_i hf
            exact h.onAtt (h.att.enqueue _ _ (Nat.not_le.1 hf))

theorem takeResultCommand (h : s.Kept) (tag : Byte) : (Machine.takeResultCommand tag s).1.Kept := by
  unfold Machine.takeResultCommand
  split
  · exact h
  · split
    · exact h
    · have taken : (s.onAtt (fun a => { a with requests := a.requests.filter (fun q => q.tag ≠ tag) })).Kept :=
        h.onAtt (h.att.filterRequests _)
      exact taken

theorem configureCommand (hs : s.Kept) (p a d h o r : Byte) : (Machine.configureCommand p a d h o r s).1.Kept := by
  unfold Machine.configureCommand
  split
  · exact hs
  · split <;> exact hs

theorem goCommand (h : s.Kept) : (Machine.goCommand s).1.Kept := by
  unfold Machine.goCommand
  split <;> exact h

theorem leaveCommand (h : s.Kept) : (Machine.leaveCommand s).1.Kept := by
  unfold Machine.leaveCommand
  split
  · exact State.Kept.onAgr (s := s.setLife .leaving) h (h.agr.pending _)
  all_goals exact h

theorem restartCommand (h : s.Kept) : (Machine.restartCommand s).1.Kept := by
  unfold Machine.restartCommand
  split
  · exact h
  · exact h.stationReset

theorem acknowledgeFaultCommand (h : s.Kept) : (Machine.acknowledgeFaultCommand s).1.Kept := by
  unfold Machine.acknowledgeFaultCommand
  split
  · exact h
  · split <;> exact h

/-! ### The frame pulse, the lookups and the clock (R172 to R175) -/

theorem actOnPulse (h : s.Kept) : (Machine.actOnPulse s).Kept := by
  unfold Machine.actOnPulse
  dsimp only
  have pulsed := State.Kept.raiseBoth (s := (s.onAgr (fun _ => (s.agr.pulse s.cfg.deadline s.mem.view).1)).onPal
    (fun _ => (s.pal.pulse (s.agr.pulse s.cfg.deadline s.mem.view).1.l s.agr.presents).1))
    ⟨h.agr.pulse _ _, h.pal.pulse _ _, h.att, h.msg, h.events, h.lookups⟩ (s.agr.pulse s.cfg.deadline s.mem.view).2
    (s.pal.pulse (s.agr.pulse s.cfg.deadline s.mem.view).1.l s.agr.presents).2
  split <;> exact pulsed

theorem confirmEdge (h : s.Kept) : (Machine.confirmEdge s).Kept := by
  unfold Machine.confirmEdge
  dsimp only
  split
  · exact h
  · split
    · exact actOnPulse (s := (s.onFrame _).onFrame _) h
    · exact h

theorem completeApplication (h : s.Kept) : (Machine.completeApplication s).Kept := by
  have completed := h.onPal h.pal.completeApplication
  unfold Machine.completeApplication
  dsimp only
  split <;> exact completed

/-- R175: at most two lookups are under way. -/
theorem sample (h : s.Kept) (entry : Color) : (s.onOutputs (fun o => o.sample entry)).Kept := by
  refine ⟨h.agr, h.pal, h.att, h.msg, h.events, ?_⟩
  have hl := h.lookups
  show (s.outputs.sample entry).lookups.length ≤ 2
  unfold Outputs.sample
  split
  · rename_i first second rest he
    rw [he] at hl
    simpa using hl
  · rename_i hn
    match hs : s.outputs.lookups, hl with
    | [], _ => simp
    | [_], _ => simp
    | a :: b :: rest, _ => exact absurd hs (hn a b rest)

theorem tick (h : s.Kept) : (Machine.tick s).Kept := by
  unfold Machine.tick
  split
  · exact h
  · exact ⟨h.agr, h.pal.tick, h.att.mapRequests _, h.msg, h.events, h.lookups⟩

/-- The end of a frame concerns the CPE alone and raises nothing. -/
theorem closeFrame (h : s.Kept) (r : Option Response) : (Machine.closeFrame r s).Kept := by
  refine ⟨h.agr, h.pal, h.att, h.msg, ?_, h.lookups⟩
  show (if canTake s then s.cpe.close r else s.cpe.endUntaken).events.length ≤ eventCapacity
  split <;> exact h.events

theorem refusedFormat {bits : List Bool} {t : State} (h : s.Kept) (ht : execRefusedFormat bits s = .next t) : t.Kept := by
  unfold execRefusedFormat at ht
  split at ht <;> cases ht
  · exact h.closeFrame _
  · exact h.closeFrame _

theorem transactionOpen (h : s.Kept) :
    { s with cpe := if s.inReset then { s.cpe with port := .abandoned } else openPort s.cpe }.Kept := by
  refine ⟨h.agr, h.pal, h.att, h.msg, ?_, h.lookups⟩
  show (if s.inReset then { s.cpe with port := .abandoned } else openPort s.cpe).events.length ≤ eventCapacity
  unfold openPort
  split
  · exact h.events
  · split <;> exact h.events

/-! ### Every step -/

/-- A row of the table keeps what O58 and O59 state. -/
theorem exec (i : Instr) {t : State} (h : s.Kept) (ht : Machine.exec i s = .next t) : t.Kept := by
  have next : ∀ {u : State}, Host.Outcome.next u = (.next t : Host.Outcome State Fault Refusal) → u.Kept → t.Kept := by
    rintro u ⟨⟩ hu; exact hu
  have heard : ∀ k : Packet, Machine.exec k.row s = .next t → t.Kept := fun k hk =>
    next ((exec_row k s).symm.trans hk) (h.hear (.readable k))
  cases i with
  | powerOnReset => exact next ht h.holdReset
  | pinResetAssert => exact next ht h.holdReset
  | powerOnResetEnd straps =>
    refine next ht ?_
    split
    · exact h
    · exact endReset straps s
  | pinResetRelease straps =>
    refine next ht ?_
    split
    · exact h
    · exact endReset straps s
  | transactionOpen => exact next ht h.transactionOpen
  | refusedFormat bits => exact h.refusedFormat ht
  | noOperation => exact next ht (h.takeCommand h)
  | readState => exact next ht (h.takeCommand h)
  | readView => exact next ht (h.takeCommand h)
  | readReadiness n => exact next ht (h.takeCommand (h.readReadinessCommand n))
  | takeEvent => exact next ht (h.takeCommand h.takeEventCommand)
  | configure p a d hb o r => exact next ht (h.takeCommand (h.configureCommand p a d hb o r))
  | go => exact next ht (h.takeCommand h.goCommand)
  | leave => exact next ht (h.takeCommand h.leaveCommand)
  | restart => exact next ht (h.takeCommand h.restartCommand)
  | acknowledgeFault => exact next ht (h.takeCommand h.acknowledgeFaultCommand)
  | ready n => exact next ht (h.takeCommand (h.readyCommand n))
  | submitPalette e start ws => exact next ht (h.takeCommand (h.submitPaletteCommand e start ws))
  | readPalette start n => exact next ht (h.takeCommand (h.readPaletteCommand start n))
  | sendMessage d st k c payload => exact next ht (h.takeCommand (h.sendMessageCommand d st k c payload))
  | takeMessage => exact next ht (h.takeCommand h.takeMessageCommand)
  | readAttribute start n => exact next ht (h.takeCommand (h.readAttributeCommand start n))
  | writeAttribute i x => exact next ht (h.takeCommand (h.writeAttributeCommand i x))
  | remoteRead target start n => exact next ht (h.takeCommand (h.remoteCommand target _ _))
  | remoteWrite target i x => exact next ht (h.takeCommand (h.remoteCommand target _ _))
  | takeResult tag => exact next ht (h.takeCommand (h.takeResultCommand tag))
  | activity =>
    refine next ht ?_
    split <;> exact h
  | receiverRearm judged =>
    refine next ht ?_
    split
    · exact h.rearm judged
    · exact h
  | unreadablePacketHeard u => exact next ht (h.hear (.unreadable u))
  | lifBeginDriving =>
    refine next ht ?_
    split
    · split
      · exact h
      · unfold beginDriving
        dsimp only
        split <;> exact h
    · exact h
    · exact h
  | packetSent =>
    refine next ht ?_
    split
    · split
      · exact h
      · exact h.packetSent _
    · exact h
  | contention kind =>
    refine next ht ?_
    split
    · split
      · exact h
      · exact h.contend kind
    · exact h
  | handoverHeard hd a v f => exact heard (.handover hd a v f) ht
  | claimHeard hd f => exact heard (.claim hd f) ht
  | inviteHeard hd f => exact heard (.invite hd f) ht
  | joinHeard hd p f => exact heard (.join hd p f) ht
  | leaveHeard hd f => exact heard (.leave hd f) ht
  | statusHeard hd p => exact heard (.status hd p) ht
  | commitHeard hd p => exact heard (.commit hd p) ht
  | paletteHeard hd p => exact heard (.palette hd p) ht
  | snapshotRequestHeard hd f => exact heard (.snapshotRequest hd f) ht
  | snapshotHeard hd part p => exact heard (.snapshot hd part p) ht
  | replayHeard hd p => exact heard (.replay hd p) ht
  | messageHeard hd a st p => exact heard (.message hd a st p) ht
  | readHeard hd a n f => exact heard (.read hd a n f) ht
  | writeHeard hd i x f => exact heard (.write hd i x f) ht
  | readReturnHeard hd a n p => exact heard (.readReturn hd a n p) ht
  | ackHeard hd r c f => exact heard (.ack hd r c f) ht
  | replyWindowEnd =>
    refine next ht ?_
    split
    · split
      · exact h.resume _ _
      · exact h
    · exact h
  | turnaroundWindowEnd =>
    refine next ht ?_
    split
    · split
      · exact h.windowEnds _
      · exact h
    · exact h
  | claimDelayExpiry =>
    refine next ht ?_
    split <;> exact h
  | foundingSilenceExpiry =>
    refine next ht ?_
    split
    · exact h.enterView true (single s.number) _
    · exact h
  | busHoldIntervalExpiry =>
    refine next ht ?_
    split <;> exact h
  | snapshotWaitExpiry =>
    refine next ht ?_
    split
    · exact h.onPal h.pal.endRequest
    · exact h
  | requestTimeout tag =>
    refine next ht ?_
    split
    · exact h
    · exact State.Kept.raiseAll (h.onAtt (h.att.timeout tag)) _
  | frameLowQualified =>
    refine next ht ?_
    split <;> exact h
  | frameRisingEdge =>
    refine next ht ?_
    split <;> exact h
  | frameGlitch =>
    refine next ht ?_
    split <;> exact h
  | framePulse =>
    refine next ht ?_
    split
    · exact h.confirmEdge
    · exact h
  | spacingWindowClose =>
    refine next ht ?_
    split <;> exact h
  | applicationComplete =>
    refine next ht ?_
    split
    · exact h
    · exact h.completeApplication
  | presentPulseEnd => exact next ht h
  | paletteLookup i =>
    refine next ht ?_
    split
    · exact h
    · exact h.sample _
  | frameFallingEdge =>
    refine next ht ?_
    split <;> exact h

/-- A step, of the front command or of the clock, keeps what O58 and O59 state. -/
theorem step {t : State} (h : s.Kept) (ht : Machine.step s = .next t) : t.Kept := by
  unfold Machine.step at ht
  split at ht
  · cases ht
    exact h.tick
  · rename_i c rest _
    exact State.Kept.exec c (s := { s with pending := rest }) h ht

end State.Kept

/-! ### The invariants of Safety.lean, in these terms -/

theorem sequencesOrdered_iff (s : State) : sequencesOrdered s = true ↔ s.agr.l ≤ s.agr.r ∧ s.agr.l ≤ s.agr.c := by
  simp [sequencesOrdered]

theorem withinCapacity_iff (s : State) : withinCapacity s = true ↔
    s.cpe.events.length ≤ eventCapacity ∧ s.pal.outbound.length ≤ outboundCapacity ∧
    s.att.requests.length ≤ requestCapacity ∧ s.att.returns.length ≤ returnCapacity ∧
    s.msg.priority.length ≤ priorityCapacity ∧ s.msg.bulk.length ≤ bulkCapacity ∧ s.msg.inbound.length ≤ inboundCapacity ∧
    s.agr.wait ≤ 63 ∧ (∀ e ∈ s.pal.credits, e.2 ≤ storeCapacity) ∧ (∀ e ∈ s.msg.credits, e.2 ≤ inboundCapacity) ∧
    s.outputs.lookups.length ≤ 2 := by
  simp only [withinCapacity, Bool.and_eq_true, List.all_eq_true, decide_eq_true_eq, and_assoc]

theorem storeAgrees_iff (s : State) : storeAgrees s = true ↔
    (s.pal.state = .normal → s.pal.store.length ≤ storeCapacity) ∧ (s.pal.state = .resync → s.pal.store = []) ∧
    (s.pal.state = .receiving → ∃ i, s.pal.install = some i ∧ s.pal.store.length = i.replays ∧ i.replays ≤ i.n ∧
      i.n ≤ storeCapacity) := by
  unfold storeAgrees
  cases s.pal.state <;> cases s.pal.install <;> simp [and_assoc]

theorem tablesSorted_iff (s : State) : tablesSorted s = true ↔
    Table.sorted s.agr.table = true ∧ Table.sorted s.pal.credits = true ∧ Table.sorted s.msg.credits = true ∧
      Table.sorted s.msg.filter = true ∧ Table.sorted s.att.table = true := by
  simp only [tablesSorted, Bool.and_eq_true, and_assoc]

/-- What the steps keep is what the seven invariants of O58 and O59 say together. -/
theorem kept_iff (s : State) : s.Kept ↔ (sequencesOrdered s = true ∧ withinCapacity s = true) ∧ storeAgrees s = true ∧
    answerAgrees s = true ∧ bankCanonical s = true ∧ tablesSorted s = true ∧ recordsMatchView s = true := by
  rw [sequencesOrdered_iff, withinCapacity_iff, storeAgrees_iff, answerAgrees_iff, tablesSorted_iff, recordsMatchView_iff]
  constructor
  · intro h
    exact ⟨⟨⟨h.agr.l_le_r, h.agr.l_le_c⟩, h.events, h.pal.outbound, h.att.requests, h.att.returns, h.msg.priority, h.msg.bulk,
        h.msg.inbound, h.agr.wait, h.pal.credits.bounded, h.msg.credits.bounded, h.lookups⟩,
      ⟨h.pal.store.normal, h.pal.store.resync, h.pal.store.receiving⟩, ⟨h.pal.store.owed_normal, h.pal.store.sending⟩, h.pal.bank,
      ⟨h.agr.table.sorted, h.pal.credits.records.sorted, h.msg.credits.records.sorted, h.msg.filter, h.att.table⟩,
      fun n => ⟨h.agr.table.entries n, h.pal.credits.records.entries n, h.msg.credits.records.entries n⟩⟩
  · rintro ⟨⟨⟨hr, hc⟩, hev, hout, hreq, hret, hpri, hbulk, hin, hwait, hpc, hmc, hlook⟩, ⟨hn, hs, hi⟩, ⟨ho, ha⟩, hbank,
      ⟨st, sp, sm, sf, sa⟩, hrec⟩
    exact ⟨⟨hr, hc, hwait, ⟨st, fun n => (hrec n).1⟩⟩, ⟨hout, ⟨⟨sp, fun n => (hrec n).2.1⟩, hpc⟩, hbank, ⟨hn, hs, hi, ho, ha⟩⟩,
      ⟨hreq, hret, sa⟩, ⟨hpri, hbulk, hin, ⟨⟨sm, fun n => (hrec n).2.2⟩, hmc⟩, sf⟩, hev, hlook⟩

theorem kept_of_stationInvariant {s : State} (h : stationInvariant s = true) : s.Kept := by
  simp only [stationInvariant, Bool.and_eq_true] at h
  obtain ⟨⟨⟨⟨⟨⟨⟨⟨⟨⟨⟨⟨⟨hq, hw⟩, hs⟩, ha⟩, hb⟩, ht⟩, hr⟩, _⟩, _⟩, _⟩, _⟩, _⟩, _⟩, _⟩ := h
  exact (kept_iff s).2 ⟨⟨hq, hw⟩, hs, ha, hb, ht, hr⟩

/-- Settles O58: every row and the clock keep each unit's bounds, and with them the sequences and the capacities. -/
theorem stepKeepsSequencesAndCapacities : Obligations.StepKeepsSequencesAndCapacities := fun _ t hs ht =>
  ((kept_iff t).1 ((kept_of_stationInvariant hs).step ht)).1

/-- Settles O59: every row and the clock keep each unit's records to the view and the store to the palette state. -/
theorem stepKeepsStoresAndRecords : Obligations.StepKeepsStoresAndRecords := fun _ t hs ht =>
  ((kept_iff t).1 ((kept_of_stationInvariant hs).step ht)).2

end Sys2Proof.Machine
end

section
/-! PROOF. READY, STATUS and COMMIT packets: O15, O38 and O39. -/

namespace Sys2Proof.Machine

/-! ### READY (R76) -/

/-- The station is in the view in MEMBER and LEAVING (R58). -/
theorem State.inView_iff (s : State) : s.inView = true ↔ s.startup.life = .member ∨ s.startup.life = .leaving := by
  simp [State.inView]

/-- Settles O15: the life-cycle state, then N against L and R, decide. -/
theorem readyRaisesR : Obligations.ReadyRaisesR := by
  intro n s hs
  refine ⟨fun hm hl => ?_, fun hv => ⟨fun hn => ?_, fun hl hr => ?_⟩⟩
  · have hv : s.inView = false := by rw [← Bool.not_eq_true, State.inView_iff, not_or]; exact ⟨hm, hl⟩
    exact exec_answered hs (by rw [readyCommand, hv]; rfl)
  · exact exec_answered hs (by rw [readyCommand, s.inView_iff.2 hv, if_neg (by decide), if_pos hn])
  · have hn : ¬ (n ≤ s.agr.l ∨ n ≤ s.agr.r) := by rw [not_or, BitVec.not_le, BitVec.not_le]; exact ⟨hl, hr⟩
    exact exec_answered hs (by rw [readyCommand, s.inView_iff.2 hv, if_neg (by decide), if_neg hn]; rfl)

/-! ### COMMIT packets (R89, R90) -/

/-- Hearing a readable packet leaves the units but the LIF, the POS and the PAL as they are. -/
theorem heardBy_units (k : Packet) (s : State) : (heardBy k s).inView = s.inView ∧ (heardBy k s).mem = s.mem ∧
    (heardBy k s).agr = s.agr ∧ (heardBy k s).msg = s.msg ∧ (heardBy k s).cpe = s.cpe := by
  rw [heardBy_eq]; exact ⟨rfl, rfl, rfl, rfl, rfl⟩

/-- Outside the view a COMMIT packet changes nothing. -/
theorem onCommit_outside (h : Head) (p : Payload CommitBody) {u : State} (hv : u.inView = false) : onCommit h p u = u := by
  cases p with
  | good b => exact if_neg (by rw [hv]; exact Bool.false_ne_true)
  | failed f => rfl

/-- A COMMIT packet in the view: the AGR takes it, and its event is raised. -/
theorem onCommit_good (h : Head) (b : CommitBody) {u : State} {a : Agr} {cpe : Cpe} {own : Station} {view : StationSet}
    (hv : u.inView = true) (ha : u.agr = a) (he : u.cpe = cpe) (hn : u.number = own) (hm : u.mem.view = view) :
    onCommit h (.good b) u = { u with
      agr := (a.hearCommit own view h.source b).1
      cpe := { cpe with events := (a.hearCommit own view h.source b).2.foldl pushEvent cpe.events } } := by
  subst ha he hn hm
  simp only [onCommit, hv, if_true, State.raiseAll_eq]
  rfl

/-- R90: a COMMIT packet with an N at or below C is ignored whole. -/
theorem Agr.hearCommit_ignored (a : Agr) (own : Station) (view : StationSet) (src : Station) {b : CommitBody} (hc : b.n ≤ a.c) :
    a.hearCommit own view src b = (a, []) := if_neg (BitVec.not_lt.2 hc)

/-- R89: a COMMIT packet adopted; a participant follows the set it carries, IN STEP or LAGGING. -/
theorem Agr.hearCommit_adopted (a : Agr) (own : Station) (view : StationSet) (src : Station) {b : CommitBody} (hc : a.c < b.n) :
    let adopted := fun (g : Agreement) => { a with
      c := b.n, inStep := b.inStep &&& view, known := true, wait := 0, deadlineReported := false, agreement := g }
    a.hearCommit own view src b =
      if a.agreement = .inStep ∧ inSet own b.inStep = false then
        (adopted .lagging, [{ kind := .lagging, sequence := some b.n, station := some src }])
      else if a.agreement = .lagging ∧ inSet own b.inStep = true then
        (adopted .inStep, [{ kind := .inStep, sequence := some b.n }])
      else (adopted a.agreement, []) := by
  rw [Agr.hearCommit, if_pos hc]
  cases hg : a.agreement <;> cases ho : inSet own b.inStep <;> simp [Agr.settle, Agr.takeBack, ho]

/-- Settles O39: the packet over what hearing it changes, ignored or adopted. -/
theorem commitIsAdoptedOrIgnored : Obligations.CommitIsAdoptedOrIgnored := by
  have taken : ∀ (h : Head) (p : Payload CommitBody) (s : State), takesPacket h s = true →
      exec (.commitHeard h p) s = .next (onCommit h p (heardBy (.commit h p) s)) := fun h p s ht =>
    congrArg Host.Outcome.next (hear_taken (.commit h p) _ s ht)
  refine ⟨fun h p s ht hv => ?_, fun h b s ht hv => ?_⟩
  · rw [taken h p s ht, onCommit_outside h p ((heardBy_units _ s).1.trans hv)]
  · intro u adopted raised ask
    obtain ⟨hi, hm, ha, _, he⟩ : u.inView = s.inView ∧ u.mem = s.mem ∧ u.agr = s.agr ∧ u.msg = s.msg ∧ u.cpe = s.cpe :=
      heardBy_units _ s
    have hask : ask = .next { u with
        agr := (s.agr.hearCommit s.number s.mem.view h.source b).1
        cpe := { s.cpe with events := (s.agr.hearCommit s.number s.mem.view h.source b).2.foldl pushEvent s.cpe.events } } :=
      (taken h (.good b) s ht).trans (congrArg Host.Outcome.next
        (onCommit_good h b (hi.trans hv) ha he (heardBy_keeps _ s).1 (by rw [hm])))
    refine ⟨fun hc => ?_, fun hc => ⟨fun hg => ?_, fun hg ho => ?_, fun hg ho => ?_⟩, fun f => taken h (.failed f) s ht⟩
    · rw [hask, Agr.hearCommit_ignored _ _ _ _ hc, ← ha, ← he]
      rfl
    · have h1 : ¬ (s.agr.agreement = .inStep ∧ inSet s.number b.inStep = false) := by
        rcases hg with hg | ⟨_, ho⟩ | ⟨hg, _⟩ <;> simp [*]
      have h2 : ¬ (s.agr.agreement = .lagging ∧ inSet s.number b.inStep = true) := by
        rcases hg with hg | ⟨hg, _⟩ | ⟨_, ho⟩ <;> simp [*]
      rw [hask, Agr.hearCommit_adopted _ _ _ _ hc, if_neg h1, if_neg h2, ← he]
      rfl
    · rw [hask, Agr.hearCommit_adopted _ _ _ _ hc, if_pos ⟨hg, ho⟩]
      rfl
    · rw [hask, Agr.hearCommit_adopted _ _ _ _ hc, if_neg (by simp [hg]), if_pos ⟨hg, ho⟩]
      rfl

/-! ### STATUS packets (R80 to R84, R106, R111, R142) -/

/-- The credit record of a station after one record is set (R106, R142). -/
theorem creditOf_setCredit (t : Table Nat) (m n : Station) (c : Nat) : creditOf (setCredit t m c) n =
    if n = m then (if (Table.get? t m.val).isSome then c else 0) else creditOf t n := by
  rw [creditOf, setCredit, Table.get?_mapAll, creditOf]
  by_cases h : n = m
  · subst h
    cases Table.get? t n.val <;> simp
  · have hv : ¬ n.val = m.val := fun e => h (Fin.ext e)
    cases Table.get? t n.val <;> simp [h, hv]

/-- The source's record alone is set. -/
theorem setCredit_spec {t : Table Nat} {m : Station} (c : Nat) (hm : (Table.get? t m.val).isSome = true ∨ c = 0) :
    creditOf (setCredit t m c) m = c ∧ ∀ n, n ≠ m → creditOf (setCredit t m c) n = creditOf t n := by
  refine ⟨?_, fun n hn => ?_⟩
  · rw [creditOf_setCredit, if_pos rfl]
    rcases hm with hm | hm
    · rw [if_pos hm]
    · rw [hm, ite_self]
  · rw [creditOf_setCredit, if_neg hn]

/-- The PAL's credit records after a STATUS packet, whether it shows a divergence or not (R106, R112). -/
theorem credits_palTakesStatus (src : Station) (b : StatusBody) (p : Pal) :
    (palTakesStatus src b p).1.credits = setCredit p.credits src (min 16 b.paletteCredit.toNat) := by
  unfold palTakesStatus
  dsimp only
  split <;> rfl

/-- Outside the view, and from no member, a STATUS packet changes nothing. -/
theorem onStatus_untaken (h : Head) (p : Payload StatusBody) {u : State}
    (hn : u.inView = false ∨ inSet h.source u.mem.view = false) : onStatus h p u = u := by
  have hc : ¬ (u.inView && inSet h.source u.mem.view) = true := by rcases hn with hn | hn <;> simp [hn]
  unfold onStatus
  exact if_neg hc

/-- A STATUS packet of a member whose payload failed: the two credit records of its source become 0. -/
theorem onStatus_failed (h : Head) (f : Flaw) {u : State} (hv : u.inView = true) (hs : inSet h.source u.mem.view = true) :
    onStatus h (.failed f) u = { u with
      pal := { u.pal with credits := setCredit u.pal.credits h.source 0 }
      msg := { u.msg with credits := setCredit u.msg.credits h.source 0 } } := by
  simp only [onStatus, hv, hs, Bool.and_self, if_true]
  rfl

/-- A good STATUS packet of a member, taken by a station of the view: the AGR, the PAL and the MSG each take it, and the events of the
first two join the queue in either order. -/
theorem onStatus_good (h : Head) (b : StatusBody) {u : State} {a : Agr} {msg : Msg} {cpe : Cpe} {own : Station} {view : StationSet}
    (hv : u.inView = true) (hs : inSet h.source view = true) (ha : u.agr = a) (hg : u.msg = msg) (he : u.cpe = cpe)
    (hn : u.number = own) (hm : u.mem.view = view) :
    let agr := a.hearStatus own view h.source b
    let pal := palTakesStatus h.source b u.pal
    ∃ (es : List EventRecord) (n : Nat), onStatus h (.good b) u = { u with
      agr := agr.1, pal := pal.1
      msg := { msg with credits := setCredit msg.credits h.source (min 8 b.messageCredit.toNat) }
      cpe := { cpe with events := es.foldl pushEvent cpe.events }, free := n } ∧ IsMerge agr.2 pal.2 es := by
  subst ha hg he hn hm
  intro agr pal
  obtain ⟨es, n, he, hm⟩ := State.raiseBoth_isMerge (((u.onAgr (fun _ => agr.1)).onPal (fun _ => pal.1)).onMsg
    (fun g => g.hearStatus h.source b)) agr.2 pal.2
  have ho : onStatus h (.good b) u = (((u.onAgr (fun _ => agr.1)).onPal (fun _ => pal.1)).onMsg
      (fun g => g.hearStatus h.source b)).raiseBoth agr.2 pal.2 := by
    simp only [onStatus, hv, hs, Bool.and_self, if_true, Pal.hearStatus_eq]
    rfl
  exact ⟨es, n, ho.trans he, hm⟩

/-- Settles O38: the packet over what hearing it changes; a station outside the view and one from no member take nothing. -/
theorem statusUpdatesTheStation : Obligations.StatusUpdatesTheStation := by
  have taken : ∀ (h : Head) (p : Payload StatusBody) (s : State), takesPacket h s = true →
      exec (.statusHeard h p) s = .next (onStatus h p (heardBy (.status h p) s)) := fun h p s ht =>
    congrArg Host.Outcome.next (hear_taken (.status h p) _ s ht)
  refine ⟨fun h b s ht hv hs hrec => ?_, fun h p s ht => ?_⟩
  · intro u pal
    obtain ⟨hi, hm, ha, hg, he⟩ : u.inView = s.inView ∧ u.mem = s.mem ∧ u.agr = s.agr ∧ u.msg = s.msg ∧ u.cpe = s.cpe :=
      heardBy_units _ s
    obtain ⟨_, hpal, hmsg⟩ := (recordsMatchView_iff s).1 hrec h.source
    rw [hs] at hpal hmsg
    obtain ⟨es, n, ho, hmerge⟩ := onStatus_good h b (hi.trans hv) hs ha hg he (heardBy_keeps _ s).1 (by rw [hm])
    have hpc : pal.1.credits = setCredit s.pal.credits h.source (min 16 b.paletteCredit.toNat) := by
      rw [credits_palTakesStatus, heardBy_credits]
    obtain ⟨hp1, hp2⟩ := setCredit_spec (min 16 b.paletteCredit.toNat) (.inl hpal)
    obtain ⟨hg1, hg2⟩ := setCredit_spec (min 8 b.messageCredit.toNat) (.inl hmsg)
    refine ⟨_, _, es, (taken h (.good b) s ht).trans (congrArg Host.Outcome.next ho), rfl, Agr.hearStatus_takes _ _ _ _ _, hmerge,
      ?_, hg1, fun m hm => ⟨?_, hg2 m hm⟩⟩
    · exact (congrArg (creditOf · h.source) hpc).trans hp1
    · exact (congrArg (creditOf · m) hpc).trans (hp2 m hm)
  · intro u
    obtain ⟨hi, hm, _⟩ : u.inView = s.inView ∧ u.mem = s.mem ∧ u.agr = s.agr ∧ u.msg = s.msg ∧ u.cpe = s.cpe := heardBy_units _ s
    refine ⟨fun hn => ?_, fun f hp hv hs => ?_⟩
    · rw [taken h p s ht, onStatus_untaken h p (by rw [hi, hm]; exact hn)]
    · subst hp
      have hf := onStatus_failed h f (hi.trans hv) (by rw [hm]; exact hs)
      obtain ⟨hp1, hp2⟩ := setCredit_spec (t := u.pal.credits) (m := h.source) 0 (.inr rfl)
      obtain ⟨hg1, hg2⟩ := setCredit_spec (t := u.msg.credits) (m := h.source) 0 (.inr rfl)
      exact ⟨_, (taken h _ s ht).trans (congrArg Host.Outcome.next hf), rfl, hp1, hg1, fun n hn => ⟨hp2 n hn, hg2 n hn⟩⟩

end Sys2Proof.Machine
end

section
/-! PROOF. The set P of the in-step participants, the commit decision and the frame pulse: O29 and O52. -/

namespace Sys2Proof.Machine

/-! ### The set P (R85, R93) -/

/-- R85: a station of P with its R: in the view and in the in-step set, heard, and a participant. -/
def Agr.Counts (a : Agr) (view : StationSet) (n : Station) (r : Seq) : Prop :=
  inSet n view = true ∧ inSet n a.inStep = true ∧
    ∃ rep : Report, a.entry n = some { participant := some true, report := some rep } ∧ rep.r = r

theorem participantReport_eq_some {e : Option Readiness} {rep : Report} :
    participantReport e = some rep ↔ e = some { participant := some true, report := some rep } := by
  rcases e with _ | ⟨_ | _ | _, _⟩ <;> simp [participantReport]

theorem Agr.mem_counted {a : Agr} {view : StationSet} {n : Station} {r : Seq} : (n, r) ∈ a.counted view ↔ a.Counts view n r := by
  simp only [Agr.counted, List.mem_filterMap, mem_members, inSet_and, Option.map_eq_some_iff, participantReport_eq_some, Prod.mk.injEq,
    Bool.and_eq_true]
  constructor
  · rintro ⟨m, ⟨hv, hi⟩, rep, he, rfl, hr⟩
    exact ⟨hv, hi, rep, he, hr⟩
  · rintro ⟨hv, hi, rep, he, hr⟩
    exact ⟨n, ⟨hv, hi⟩, rep, he, rfl, hr⟩

theorem Agr.mem_ahead {a : Agr} {view : StationSet} {n : Station} {r : Seq} :
    (n, r) ∈ a.ahead view ↔ a.Counts view n r ∧ a.c < r := by
  simp [Agr.ahead, Agr.mem_counted]

theorem Agr.mem_late {a : Agr} {view : StationSet} {n : Station} {r : Seq} :
    (n, r) ∈ a.late view ↔ a.Counts view n r ∧ r ≤ a.c := by
  simp [Agr.late, Agr.mem_counted, BitVec.not_lt]

/-- A list of stations with sequences is not empty where it has a pair. -/
theorem ne_nil_iff_exists_pair {xs : List (Station × Seq)} : xs ≠ [] ↔ ∃ n r, (n, r) ∈ xs := by
  rw [ne_eq, List.eq_nil_iff_forall_not_mem, not_forall_not, Prod.exists]

/-- The stations of a list, as a set. -/
theorem inSet_stationsOf (n : Station) (xs : List (Station × Seq)) :
    inSet n (setOf (xs.map Prod.fst)) = true ↔ ∃ r, (n, r) ∈ xs := by
  simp [inSet_setOf]

/-! ### The commit decision (R85 to R87) -/

/-- The least sequence of a list that is not empty is one of its sequences and not above any. -/
theorem leastSeq_spec {xs : List (Station × Seq)} (h : xs ≠ []) :
    (∃ n, (n, leastSeq xs) ∈ xs) ∧ ∀ x ∈ xs, leastSeq xs ≤ x.2 := by
  induction xs with
  | nil => exact absurd rfl h
  | cons x xs ih =>
    cases xs with
    | nil => exact ⟨⟨x.1, List.mem_singleton_self x⟩, fun y hy => by rw [List.mem_singleton.1 hy]; exact BitVec.le_refl _⟩
    | cons y ys =>
      obtain ⟨⟨n, hn⟩, hle⟩ := ih (List.cons_ne_nil y ys)
      have heq : leastSeq (x :: y :: ys) = if x.2 < leastSeq (y :: ys) then x.2 else leastSeq (y :: ys) := rfl
      rw [heq]
      split
      · rename_i hlt
        refine ⟨⟨x.1, List.mem_cons_self ..⟩, fun z hz => ?_⟩
        rcases List.mem_cons.1 hz with rfl | hz
        · exact BitVec.le_refl _
        · exact BitVec.le_trans (BitVec.le_of_lt hlt) (hle z hz)
      · rename_i hlt
        refine ⟨⟨n, List.mem_cons_of_mem _ hn⟩, fun z hz => ?_⟩
        rcases List.mem_cons.1 hz with rfl | hz
        · exact BitVec.not_lt.1 hlt
        · exact hle z hz

/-- A decision commits the least sequence of a set of stations, with those stations. -/
def CommitsLeast (q : Station → Seq → Prop) (d : Option CommitBody) : Prop :=
  ∃ b, d = some b ∧ (∀ n, inSet n b.inStep = true ↔ ∃ r, q n r) ∧ (∃ n, q n b.n) ∧ ∀ n r, q n r → b.n ≤ r

theorem commitsLeast_of_list {xs : List (Station × Seq)} {q : Station → Seq → Prop} (hq : ∀ n r, (n, r) ∈ xs ↔ q n r)
    (hx : ∃ n r, q n r) : CommitsLeast q (some { n := leastSeq xs, inStep := setOf (xs.map Prod.fst) }) := by
  obtain ⟨n, r, hn⟩ := hx
  obtain ⟨⟨m, hm⟩, hle⟩ := leastSeq_spec (ne_nil_iff_exists_pair.2 ⟨n, r, (hq n r).2 hn⟩)
  refine ⟨_, rfl, fun k => ?_, ⟨m, (hq _ _).1 hm⟩, fun k x hk => hle (k, x) ((hq k x).2 hk)⟩
  rw [inSet_stationsOf]
  exact exists_congr fun x => hq k x

namespace Agr

variable {a : Agr} {c : ConfigRecord} {view : StationSet}

theorem ahead_eq_nil_iff : a.ahead view = [] ↔ ∀ n r, a.Counts view n r → r ≤ a.c := by
  rw [← not_iff_not, ← ne_eq, ne_nil_iff_exists_pair]
  simp only [Agr.mem_ahead, not_forall, BitVec.not_le, exists_prop]

/-- No station of P is late where as many are beyond C as there are. -/
theorem length_ahead_iff : (a.ahead view).length = (a.counted view).length ↔ ∀ n r, a.Counts view n r → a.c < r := by
  rw [Agr.ahead, List.length_filter_eq_length_iff, Prod.forall]
  simp only [Agr.mem_counted, decide_eq_true_eq]

/-- R85: no decision over an unknown set or with no station of P beyond C. -/
theorem decision_none (h : a.known = false ∨ ∀ n r, a.Counts view n r → r ≤ a.c) : a.decision c view = none := by
  refine if_pos ?_
  rcases h with h | h
  · rw [h]; rfl
  · rw [ahead_eq_nil_iff.2 h]; simp

/-- Over a known set with a station of P beyond C, the stations beyond C decide: all of P, or those in time. -/
theorem decision_known (hk : a.known = true) (hx : ∃ n r, a.Counts view n r ∧ a.c < r) : a.decision c view =
    if (a.ahead view).length = (a.counted view).length then
      some { n := leastSeq (a.counted view), inStep := setOf ((a.counted view).map Prod.fst) }
    else if c.policy = .dropLate ∧ c.deadline ≤ a.wait then
      some { n := leastSeq (a.ahead view), inStep := setOf ((a.ahead view).map Prod.fst) }
    else none := by
  obtain ⟨n, r, hn⟩ := hx
  have hne : (a.ahead view).isEmpty = false := by
    rw [← Bool.not_eq_true, List.isEmpty_iff]
    exact ne_nil_iff_exists_pair.2 ⟨n, r, mem_ahead.2 hn⟩
  simp only [Agr.decision, hk, hne, Bool.not_true, Bool.or_self, Bool.false_eq_true, if_false]

end Agr

/-! ### The own STATUS packet (R85, R88, R118) -/

/-- The sending of a packet leaves the units but the LIF, the POS and the PAL as they are. -/
theorem sentBy_units (tx : Tx) (s : State) : (sentBy tx s).startup = s.startup ∧ (sentBy tx s).mem = s.mem ∧
    (sentBy tx s).agr = s.agr ∧ (sentBy tx s).msg = s.msg ∧ (sentBy tx s).cpe = s.cpe := by
  rw [sentBy_eq]; exact ⟨rfl, rfl, rfl, rfl, rfl⟩

/-- R118: an answer not yet begun is dropped where its requester is lost; one begun goes on. -/
theorem Pal.owed_dropOwed (p : Pal) (lost : Station → Bool) :
    (p.answer = none → ∀ o, p.owed = some o → (p.dropOwed lost).owed = if lost o.requester then none else some o) ∧
    (p.answer ≠ none ∨ p.owed = none → (p.dropOwed lost).owed = p.owed) := by
  refine ⟨fun ha o ho => ?_, fun h => ?_⟩
  · cases hl : lost o.requester <;> simp [Pal.dropOwed, ha, ho, hl]
  · cases ha : p.answer with
    | none => simp [Pal.dropOwed, ha, h.resolve_left (not_not.2 ha)]
    | some a => simp [Pal.dropOwed, ha]

/-- R85, R118: the own STATUS packet, taken as every station takes it; then the commit decision of a MEMBER, and an answer owed to a
station outside the view is dropped. -/
theorem statusSent_good (h : Head) (b : StatusBody) {u : State} {a : Agr} {msg : Msg} {cpe : Cpe} {own : Station} {view : StationSet}
    {life : Life} {c : ConfigRecord} (hv : u.inView = true) (hs : inSet h.source view = true) (ha : u.agr = a) (hg : u.msg = msg)
    (he : u.cpe = cpe) (hn : u.number = own) (hm : u.mem.view = view) (hl : u.startup.life = life) (hc : u.cfg = c) :
    let agr := a.hearStatus own view h.source b
    let pal := palTakesStatus h.source b u.pal
    ∃ (es : List EventRecord) (n : Nat), statusSent h (.good b) u = { u with
      agr := { agr.1 with pendingCommit := if life = .member then agr.1.decision c view else none }
      pal := pal.1.dropOwed (fun n => !inSet n view)
      msg := { msg with credits := setCredit msg.credits h.source (min 8 b.messageCredit.toNat) }
      cpe := { cpe with events := es.foldl pushEvent cpe.events }, free := n } ∧ IsMerge agr.2 pal.2 es := by
  obtain ⟨es, n, ho, hmerge⟩ := onStatus_good h b hv hs ha hg he hn hm
  subst hm hl hc
  exact ⟨es, n, by rw [statusSent, ho]; rfl, hmerge⟩

/-- Settles O29: the set P as a list, its least sequence and the late ones; then the own packet, taken as every station takes it. -/
theorem statusSentDecidesTheCommit : Obligations.StatusSentDecidesTheCommit := by
  refine ⟨fun a c view => ?_, fun s tx h b c hr hd hcls hpk hc hv hs => ?_⟩
  · intro p least
    refine ⟨fun hn => Agr.decision_none hn, fun hk hx hall => ?_, fun hk hx hlate => ?_⟩
    · obtain ⟨n, r, hn⟩ := hx
      rw [Agr.decision_known hk ⟨n, r, hn, hall n r hn⟩, if_pos (Agr.length_ahead_iff.2 hall)]
      exact commitsLeast_of_list (fun _ _ => Agr.mem_counted) ⟨n, r, hn⟩
    · have hall : ¬ (a.ahead view).length = (a.counted view).length := fun hall => by
        obtain ⟨n, r, hn, hle⟩ := hlate
        exact BitVec.not_lt.2 hle (Agr.length_ahead_iff.1 hall n r hn)
      rw [Agr.decision_known hk hx, if_neg hall]
      refine ⟨fun hp => ?_, fun hp => if_neg hp⟩
      rw [if_pos hp]
      exact commitsLeast_of_list (fun _ _ => Agr.mem_ahead) hx
  · intro u pal
    obtain ⟨hu, hm, ha, hg, he⟩ : u.startup = s.startup ∧ u.mem = s.mem ∧ u.agr = s.agr ∧ u.msg = s.msg ∧ u.cpe = s.cpe :=
      sentBy_units tx s
    have hv' : u.inView = true := by rw [State.inView, hu]; exact hv
    have hn : u.number = s.number := by rw [State.number, hu]; rfl
    have hcfg : u.cfg = c := by rw [State.cfg, hu, hc]; rfl
    obtain ⟨es, n, hsent, hmerge⟩ := statusSent_good h b hv' hs ha hg he hn (by rw [hm]) (by rw [hu]) hcfg
    obtain ⟨hdrop, hkeep⟩ := pal.1.owed_dropOwed (fun n => !inSet n s.mem.view)
    refine ⟨statusSent h (.good b) u, _, _, es, ?_, Agr.hearStatus_takes s.agr s.number s.mem.view h.source b, ?_, hmerge,
      fun h1 o h2 => ?_, fun h1 => ?_⟩
    · rw [exec_packetSent hr hd, hcls, hpk]; rfl
    · rw [hsent]; rfl
    · rw [hsent]
      refine (hdrop h1 o h2).trans ?_
      cases inSet o.requester s.mem.view <;> rfl
    · rw [hsent]; exact hkeep h1

end Sys2Proof.Machine
end

section
/-! PROOF. The frame pulse: O52. -/

namespace Sys2Proof.Machine

/-! ### The AGR at a frame pulse (R91 to R93) -/

namespace Agr

variable {a : Agr} {view : StationSet}

theorem presents_iff : a.presents = true ↔ a.l < a.r ∧ a.r ≤ a.c := by
  simp [Agr.presents]

/-- R91: L after the present decision. -/
theorem present_eq : a.present = { a with l := if a.l < a.r ∧ a.r ≤ a.c then a.r else a.l } := by
  simp only [Agr.present, presents_iff]
  split <;> rfl

/-- R92: the wait count rises over a known set with a station of P beyond C, up to 63. -/
theorem wait_countWait (hk : a.known = true) (hx : ∃ n r, a.Counts view n r ∧ a.c < r) :
    (a.countWait view).wait = min 63 (a.wait + 1) := by
  obtain ⟨n, r, hn⟩ := hx
  have hne : a.ahead view ≠ [] := ne_nil_iff_exists_pair.2 ⟨n, r, mem_ahead.2 hn⟩
  simp [Agr.countWait, hk, hne]

/-- R92: otherwise it is 0. -/
theorem wait_countWait_zero (h : a.known = false ∨ ∀ n r, a.Counts view n r → r ≤ a.c) : (a.countWait view).wait = 0 := by
  rcases h with h | h
  · simp [Agr.countWait, h]
  · simp [Agr.countWait, ahead_eq_nil_iff.2 h]

/-- R93: the deadline is missed with a late station in P. -/
theorem missed_iff {deadline : Nat} : a.missed deadline view = true ↔
    deadline ≤ a.wait ∧ a.deadlineReported = false ∧ ∃ n r, a.Counts view n r ∧ r ≤ a.c := by
  have hl : (a.late view).isEmpty = false ↔ ∃ n r, a.Counts view n r ∧ r ≤ a.c := by
    rw [← Bool.not_eq_true, List.isEmpty_iff, ← ne_eq, ne_nil_iff_exists_pair]
    simp only [mem_late]
  simp [Agr.missed, hl, and_assoc]

theorem inSet_late (n : Station) :
    inSet n (setOf ((a.late view).map Prod.fst)) = true ↔ ∃ r, a.Counts view n r ∧ r ≤ a.c := by
  rw [inSet_stationsOf]
  simp only [mem_late]

/-- R93: the deadline check, after the count. -/
theorem checkDeadline_eq (deadline : Nat) : a.checkDeadline deadline view =
    ({ a with deadlineReported := if a.missed deadline view = true then true else a.deadlineReported },
     if a.missed deadline view = true then
       [{ kind := .deadlineMissed, sequence := some a.c, stations := some (setOf ((a.late view).map Prod.fst)) }] else []) := by
  unfold Agr.checkDeadline
  split <;> rfl

/-- R91 to R93: the AGR after a frame pulse: the present decision, then the count, then the deadline check over both. -/
theorem pulse_eq (deadline : Nat) :
    let counted := { a with l := if a.l < a.r ∧ a.r ≤ a.c then a.r else a.l }.countWait view
    a.pulse deadline view =
      ({ counted with deadlineReported := if counted.missed deadline view = true then true else a.deadlineReported },
       (if a.l < a.r ∧ a.r ≤ a.c then [{ kind := .presented, sequence := some a.r }] else []) ++
         if counted.missed deadline view = true then
           [{ kind := .deadlineMissed, sequence := some a.c, stations := some (setOf ((counted.late view).map Prod.fst)) }]
         else []) := by
  simp only [Agr.pulse, present_eq, checkDeadline_eq, presents_iff]
  rfl

end Agr

/-! ### The PAL at a frame pulse (R109, R110) -/

/-- R109, R110: the records due are applied in NORMAL with no answer being sent; during one they are late. -/
theorem Pal.pulse_eq (p : Pal) (l : Seq) (presented : Bool) : p.pulse l presented =
    (if p.state = .normal ∧ p.deferral = false ∧ p.due l ≠ [] then p.beginApplication l presented else p,
     if p.deferral = true ∧ p.due l ≠ [] then [{ kind := .paletteLate, sequence := some l }] else []) := by
  have ha : p.applies l = true ↔ p.state = .normal ∧ p.deferral = false ∧ p.due l ≠ [] := by simp [Pal.applies, and_assoc]
  have hd : (p.deferral && !(p.due l).isEmpty) = true ↔ p.deferral = true ∧ p.due l ≠ [] := by simp
  simp only [Pal.pulse, ha, hd]
  split
  · rename_i h
    rw [if_neg (by simp [h.2.1])]
  · split <;> rfl

/-! ### FRAME_PULSE (R171 to R173) -/

/-- The confirmation ends outside a reset. -/
theorem exec_framePulse {s : State} (hr : s.inReset = false) (hp : s.frame.phase = .confirming) :
    exec .framePulse s = .next (confirmEdge s) :=
  congrArg Host.Outcome.next (if_pos (by simp [hr, hp]))

/-- R171, R172: with the spacing window closed it opens, and a member takes the pulse. -/
theorem confirmEdge_closed {s : State} (hs : s.frame.spacing = none) :
    let u := { s with frame := { s.frame with
      phase := .waitLow, stood := max s.frame.stood Config.frameConfirm, spacing := some 0 } }
    confirmEdge s = if s.inView = true then actOnPulse u else u :=
  if_neg (by rw [hs]; exact Bool.false_ne_true)

/-- R172, R173: the pulse at a member: the AGR, the PAL with the L it leaves, PRESENT, and the events of the two units. -/
theorem actOnPulse_eq {u : State} {c : ConfigRecord} (hc : u.cfg = c) :
    let agr := u.agr.pulse c.deadline u.mem.view
    let pal := u.pal.pulse agr.1.l u.agr.presents
    ∃ (es : List EventRecord) (n : Nat), actOnPulse u = { u with
      agr := agr.1, pal := pal.1
      outputs := if u.agr.presents = true ∧ ¬ u.pal.applies agr.1.l = true then { u.outputs with present := some 0 } else u.outputs
      cpe := { u.cpe with events := es.foldl pushEvent u.cpe.events }, free := n } ∧ IsMerge agr.2 pal.2 es := by
  subst hc
  intro agr pal
  obtain ⟨es, n, he, hm⟩ := State.raiseBoth_isMerge ((u.onAgr (fun _ => agr.1)).onPal (fun _ => pal.1)) agr.2 pal.2
  refine ⟨es, n, ?_, hm⟩
  have ha : actOnPulse u = if (u.agr.presents && !u.pal.applies agr.1.l) = true
      then (((u.onAgr (fun _ => agr.1)).onPal (fun _ => pal.1)).raiseBoth agr.2 pal.2).onOutputs Outputs.rise
      else ((u.onAgr (fun _ => agr.1)).onPal (fun _ => pal.1)).raiseBoth agr.2 pal.2 := rfl
  rw [ha, he]
  simp only [Bool.and_eq_true, Bool.not_eq_true', Bool.not_eq_true]
  split <;> rfl

/-- Settles O52: the qualifier, then at a member the AGR, the PAL with the L it leaves, and PRESENT. -/
theorem framePulseAtAMember : Obligations.FramePulseAtAMember := by
  intro s c hr hp hc q
  have hx := exec_framePulse hr hp
  refine ⟨fun hs => ?_, fun hs hv => ?_, fun hs hv => ?_⟩
  · rw [hx, confirmEdge, if_pos (Option.isSome_iff_ne_none.2 hs)]; rfl
  · rw [hx, confirmEdge_closed hs, hv]; rfl
  · intro counted presents l due applies
    have hcfg : { s with frame := { q with spacing := some 0 } }.cfg = c := by
      show s.startup.config.getD _ = c
      rw [hc]; rfl
    have hpresents : s.agr.presents = decide presents := Bool.eq_iff_iff.2 (Agr.presents_iff.trans decide_eq_true_iff.symm)
    obtain ⟨es, n, ht, hm⟩ := actOnPulse_eq hcfg
    have happlies : s.pal.applies l = true ↔ applies := by simp [Pal.applies, and_assoc, applies, due, Pal.due]
    simp only [Agr.pulse_eq, Pal.pulse_eq, hpresents] at ht hm
    rw [hx, confirmEdge_closed hs, if_pos hv]
    refine ⟨_, congrArg Host.Outcome.next ht, rfl, rfl, fun hk h => ?_, fun h => ?_, ?_⟩
    · exact Agr.wait_countWait (a := { s.agr with l := l }) hk h
    · exact Agr.wait_countWait_zero (a := { s.agr with l := l }) h
    intro missed
    let after := ({ s.agr with l := l }).countWait s.mem.view
    have hmissed : after.missed c.deadline s.mem.view = true ↔ missed := Agr.missed_iff
    let late := setOf ((after.late s.mem.view).map Prod.fst)
    refine ⟨fun h => if_pos (hmissed.2 h), fun h => if_neg (mt hmissed.1 h), rfl,
      if_congr (and_congr decide_eq_true_iff (not_congr happlies)) rfl rfl, es,
      if after.missed c.deadline s.mem.view = true then [⟨.deadlineMissed, none, some s.agr.c, none, none, some late, false⟩] else [],
      late, rfl, fun n => Agr.inSet_late (a := after) n,
      fun h => if_pos (hmissed.2 h), fun h => if_neg (mt hmissed.1 h), hm.1, hm.2.2⟩

end Sys2Proof.Machine
end

section
/-! PROOF. SUBMIT PALETTE, READ PALETTE, the end of an application, PRESENT and the palette lookup: O16, O17 and O53. -/

namespace Sys2Proof.Machine

/-! ### SUBMIT PALETTE and READ PALETTE (R103, R104) -/

/-- A run of things within its bounds (R103, R104, R127, R130, R135). -/
theorem runFits_iff (start count most size : Nat) :
    runFits start count most size = true ↔ 1 ≤ count ∧ count ≤ most ∧ start + count ≤ size := by
  simp only [runFits, Bool.and_eq_true, decide_eq_true_eq, and_assoc]

/-- R104: SUBMIT PALETTE, its four answers in the order in which they are judged. -/
theorem submitPaletteCommand_eq (e : Seq) (start : BitVec 16) (ws : List Value) (s : State) :
    submitPaletteCommand e start ws s =
      if s.startup.life ≠ .member ∨ s.pal.state ≠ .normal then (s, .refused .state)
      else if ¬ (1 ≤ ws.length ∧ ws.length ≤ 64 ∧ start.toNat + ws.length ≤ 512) then (s, .refused .range)
      else if 4 ≤ s.pal.outbound.length then (s, .refused .full)
      else ({ s with pal := { s.pal with outbound :=
          s.pal.outbound ++ [{ effective := e, start := start, entries := ws.map (fun w => w.setWidth 30) }] } },
        .queued (byte (s.pal.outbound.length + 1))) := by
  simp only [← runFits_iff, Bool.not_eq_true, ← Bool.not_eq_true']
  rfl

/-- Settles O16: the tests of the command, one after the other. -/
theorem submitPaletteQueuesARecord : Obligations.SubmitPaletteQueuesARecord := by
  intro e start ws s hs inRange
  have hcmd := submitPaletteCommand_eq e start ws s
  refine ⟨fun h => ?_, fun hl hp => ?_⟩
  · exact exec_answered hs (hcmd.trans (if_pos h))
  · rw [if_neg (by simp [hl, hp])] at hcmd
    refine ⟨fun hr => ?_, fun hr hf => ?_, fun hr hf => ?_⟩
    · exact exec_answered hs (hcmd.trans (if_pos hr))
    · exact exec_answered hs (hcmd.trans ((if_neg (not_not.2 hr)).trans (if_pos hf)))
    · exact exec_answered hs (hcmd.trans ((if_neg (not_not.2 hr)).trans (if_neg (Nat.not_le.2 hf))))

/-- The bank as the running application leaves it, by the applications (R103). -/
theorem Pal.settledBank_eq (p : Pal) : p.settledBank = match p.applications with
    | [] => p.bank
    | a :: _ => p.bank.writeAll a.writes := by
  unfold Pal.settledBank Pal.runningWrites
  cases p.applications <;> rfl

/-- Settles O17: the run fits, or it does not. -/
theorem readPaletteReturnsTheRun : Obligations.ReadPaletteReturnsTheRun := by
  intro start count s hs
  refine ⟨fun h => ?_, fun h1 h32 h512 => ?_⟩
  · have hf : ¬ runFits start.toNat count.toNat 32 512 = true := by
      rw [runFits_iff]
      rcases h with rfl | h | h
      · simp
      · omega
      · omega
    exact exec_answered hs (if_pos (by rw [Bool.not_eq_true']; exact Bool.eq_false_iff.2 hf))
  · have hf : runFits start.toNat count.toNat 32 512 = true := (runFits_iff _ _ _ _).2 ⟨h1, h32, h512⟩
    have hx := exec_answered (f := readPaletteCommand start count) hs (if_neg (by rw [hf]; decide))
    rw [Pal.settledBank_eq] at hx
    exact hx

/-! ### The end of an application, PRESENT and lookups (R173 to R175) -/

/-- R174: the application that runs writes the rest of its entries, and leaves. -/
theorem completeApplication_running {s : State} {a : Application} {rest : List Application} (h : s.pal.applications = a :: rest) :
    completeApplication s = { s with
      pal := { s.pal with bank := s.pal.bank.writeAll a.writes, applications := rest }
      outputs := if a.present then { s.outputs with present := some 0 } else s.outputs } := by
  have hp : s.pal.completeApplication = { s.pal with bank := s.pal.bank.writeAll a.writes, applications := rest } := by
    rw [Pal.completeApplication, h]
  have hd : s.pal.presentDue = a.present := by rw [Pal.presentDue, h]
  simp only [completeApplication, hd, State.onPal, hp]
  cases a.present <;> rfl

/-- With no application running its end changes nothing (log 2). -/
theorem completeApplication_idle {s : State} (h : s.pal.applications = []) : completeApplication s = s := by
  have hp : s.pal.completeApplication = s.pal := by rw [Pal.completeApplication, h]
  have hd : s.pal.presentDue = false := by rw [Pal.presentDue, h]
  simp only [completeApplication, hd, State.onPal, hp]
  rfl

/-- Within the bank, an entry reads after at most one write as before, or as that write left it. -/
theorem Memory.read_writeAll_take_one (m : Memory) (ws : List (Nat × Color)) {i : Nat} (hi : i < bankSize) :
    (m.writeAll (ws.take 1)).read i = m.read i ∨ ws.head? = some (i, (m.writeAll (ws.take 1)).read i) := by
  cases ws with
  | nil => exact .inl rfl
  | cons w ws =>
    obtain ⟨j, c⟩ := w
    by_cases hj : j = i
    · subst hj
      right
      have hr : (m.writeAll [(j, c)]).read j = c := by
        rw [Memory.writeAll, if_pos hi]
        exact Memory.read_write_self m j c
      show some (j, c) = some (j, (m.writeAll [(j, c)]).read j)
      rw [hr]
    · exact .inl (Memory.read_writeAll_other m _ i (by simpa using hj))

theorem Pal.runningWrites_head? {p : Pal} {w : Nat × Color} (h : p.runningWrites.head? = some w) :
    ∃ writes present rest, p.applications = ⟨w :: writes, present⟩ :: rest := by
  unfold Pal.runningWrites at h
  split at h
  · cases h
  · rename_i a rest ha
    obtain ⟨writes, present⟩ := a
    obtain ⟨tail, rfl⟩ := List.head?_eq_some_iff.1 h
    exact ⟨tail, present, rest, ha⟩

/-- R175: a lookup samples the entry at the index, or the write of it that an installation or an application is making (log 6). -/
theorem Pal.lookup_cases (p : Pal) {i : Nat} (hi : i < bankSize) (newer : Bool) :
    p.lookup i newer = p.bank.read i ∨ p.installing.head? = some (i, p.lookup i newer) ∨
      ∃ writes present rest, p.applications = ⟨(i, p.lookup i newer) :: writes, present⟩ :: rest := by
  cases newer with
  | false => exact .inl rfl
  | true =>
    have hl : p.lookup i true = p.stoppedBank.read i := rfl
    rw [hl]
    rcases (p.bank.writeAll (p.installing.take 1)).read_writeAll_take_one p.runningWrites hi with hr | hr
    · rw [Pal.stoppedBank, hr]
      rcases p.bank.read_writeAll_take_one p.installing hi with hb | hb
      · exact .inl hb
      · exact .inr (.inl hb)
    · exact .inr (.inr (Pal.runningWrites_head? hr))

/-- R175: the entry sampled two lookups before is driven, where there is one, and the new one joins those under way (log 8). -/
theorem Outputs.sample_eq (o : Outputs) (entry : Color) : o.sample entry = match o.lookups with
    | [] => { o with lookups := [entry] }
    | [one] => { o with lookups := [one, entry] }
    | first :: second :: rest => { o with ld := first, lookups := (second :: rest) ++ [entry] } := by
  unfold Outputs.sample
  rcases o.lookups with _ | ⟨first, _ | ⟨second, rest⟩⟩ <;> rfl

/-- Settles O53: each row outside a reset, by the applications and by the lookups under way. -/
theorem applicationPresentAndLookup : Obligations.ApplicationPresentAndLookup := by
  intro s hr
  have hcomplete : exec .applicationComplete s = .next (completeApplication s) :=
    congrArg Host.Outcome.next (if_neg (by rw [hr]; exact Bool.false_ne_true))
  refine ⟨fun a rest h => ?_, fun h => ?_, rfl, fun index => ?_⟩
  · rw [hcomplete, completeApplication_running h]
  · rw [hcomplete, completeApplication_idle h]
  · refine ⟨_, ?_, s.pal.lookup_cases index.isLt (Config.lookupRace s.free)⟩
    have hx : exec (.paletteLookup index) s = .next ((s.onOutputs
        (fun o => o.sample (s.pal.lookup index.toNat (Config.lookupRace s.free)))).useFree 1) :=
      congrArg Host.Outcome.next (if_neg (by rw [hr]; exact Bool.false_ne_true))
    rw [hx, State.onOutputs, Outputs.sample_eq]
    rfl

end Sys2Proof.Machine
end

section
/-! PROOF. What a packet that the PAL takes does in the view, and a PALETTE packet heard: O40. -/

namespace Sys2Proof.Machine

/-! ### A packet that the PAL takes in the view -/

/-- In the view, hearing a packet leaves the PAL with the answer that the packet breaks (R121). -/
theorem heardBy_pal_inView (k : Packet) {s : State} (hv : s.inView = true) :
    (heardBy k s).pal = s.pal.breakAnswer s.number k := by
  rw [heardBy_pal, if_pos hv]

/-- What the PAL makes of a packet of the kinds it takes: PALETTE, SNAPSHOT and REPLAY (R108, R120). -/
def Pal.take (p : Pal) (own : Station) : Packet → Option (Pal × List EventRecord)
  | .palette h b => some (p.hearPalette h.source b)
  | .snapshot h part b => some (p.hearSnapshot own h part b)
  | .replay h b => some (p.hearReplay own h b)
  | _ => none

section Takes

variable {k : Packet} {s : State} {q : Pal} {es : List EventRecord}

/-- In the view the PAL takes the packet, and its events are raised. -/
theorem actOn_palTakes (hv : s.inView = true) (hk : s.pal.take s.number k = some (q, es)) :
    actOn k s = { s with pal := q, cpe := { s.cpe with events := es.foldl pushEvent s.cpe.events } } := by
  have raises : ∀ r : Pal × List EventRecord, some r = some (q, es) → (s.onPal (fun _ => r.1)).raiseAll r.2 =
      { s with pal := q, cpe := { s.cpe with events := es.foldl pushEvent s.cpe.events } } := by
    rintro _ ⟨⟩
    exact State.raiseAll_eq _ _
  unfold Pal.take at hk
  split at hk
  · exact (if_pos hv).trans (raises _ hk)
  · exact (if_pos hv).trans (raises _ hk)
  · exact (if_pos hv).trans (raises _ hk)
  · cases hk

/-- Outside the view it does nothing (R108, R120). -/
theorem actOn_palTakes_outside (hv : s.inView = false) (hk : (s.pal.take s.number k).isSome = true) : actOn k s = s := by
  have hi : ¬ s.inView = true := by rw [hv]; exact Bool.false_ne_true
  unfold Pal.take at hk
  split at hk
  · exact if_neg hi
  · exact if_neg hi
  · exact if_neg hi
  · cases hk

/-- The row of such a packet in the view, over what hearing it changes. -/
theorem exec_palTakes (ht : takesPacket k.head s = true) (hv : s.inView = true)
    (hk : (heardBy k s).pal.take s.number k = some (q, es)) :
    let u := heardBy k s
    exec k.row s = .next { u with pal := q, cpe := { u.cpe with events := es.foldl pushEvent u.cpe.events } } := by
  rw [exec_row, hear_taken k _ s ht]
  exact congrArg Host.Outcome.next (actOn_palTakes ((heardBy_units k s).1.trans hv) (by rw [(heardBy_keeps k s).1]; exact hk))

/-- The row of such a packet outside the view is what hearing it changes. -/
theorem exec_palTakes_outside (ht : takesPacket k.head s = true) (hv : s.inView = false)
    (hk : ((heardBy k s).pal.take (heardBy k s).number k).isSome = true := by rfl) : exec k.row s = .next (heardBy k s) := by
  rw [exec_row, hear_taken k _ s ht, actOn_palTakes_outside ((heardBy_units k s).1.trans hv) hk]

end Takes

/-! ### PALETTE packets (R106, R108, R111, R112) -/

/-- R106: every credit record falls by 1. -/
theorem creditOf_lowerAll (t : Table Nat) (n : Station) : creditOf (lowerAll t) n = creditOf t n - 1 := by
  rw [creditOf, lowerAll, Table.get?_mapAll, creditOf]
  cases Table.get? t n.val <;> rfl

/-- R108: the checks of a good record, in their order. -/
theorem Pal.judge_good (p : Pal) (r : UpdateRecord) : p.judge (.good r) =
    if 512 < r.start.toNat + r.entries.length then some .check
    else if r.serial ≠ p.e then some .serial
    else if 16 ≤ p.store.length then some .full
    else none := rfl

section HearPalette

variable {p : Pal} (src : Station)

/-- R106: outside NORMAL a PALETTE packet lowers the credit records, and no more. -/
theorem Pal.hearPalette_idle (b : Payload UpdateRecord) (hs : p.state ≠ .normal) :
    p.hearPalette src b = ({ p with credits := lowerAll p.credits }, []) := if_pos hs

/-- R111, R112: in NORMAL a packet that fails a check makes the palette diverge. -/
theorem Pal.hearPalette_diverges {b : Payload UpdateRecord} {why : Reason} (hs : p.state = .normal) (hj : p.judge b = some why) :
    p.hearPalette src b = ({ p with credits := lowerAll p.credits }.diverge, [divergedEvent src why]) := by
  refine (if_neg (not_not.2 hs)).trans ?_
  split
  · rename_i why' hj'
    rw [Option.some.inj (hj.symm.trans hj')]
  · rename_i hj'
    exact nomatch hj.symm.trans hj'
  · rename_i hj'
    exact nomatch hj.symm.trans hj'

/-- R108: in NORMAL a record that passes them is appended, and E counts on. -/
theorem Pal.hearPalette_appends {r : UpdateRecord} (hs : p.state = .normal) (hj : p.judge (.good r) = none) :
    p.hearPalette src (.good r) = ({ p with credits := lowerAll p.credits, store := p.store ++ [r], e := p.e + 1 }, []) := by
  refine (if_neg (not_not.2 hs)).trans ?_
  split
  · rename_i hj'
    exact nomatch hj.symm.trans hj'
  · rename_i hb
    cases hb
    rfl
  · rename_i hb
    exact nomatch hb

theorem Pal.credits_hearPalette (b : Payload UpdateRecord) : (p.hearPalette src b).1.credits = lowerAll p.credits := by
  unfold Pal.hearPalette
  dsimp only
  split
  · rfl
  · split <;> rfl

end HearPalette

/-- Settles O40: outside the view nothing more than hearing; in the view the state of the PAL and then the judgement decide. -/
theorem paletteRecordIsAppendedOrDiverges : Obligations.PaletteRecordIsAppendedOrDiverges := by
  refine ⟨fun h p s ht hv => exec_palTakes_outside (k := .palette h p) ht hv, fun h p s ht hv => ?_⟩
  intro u raised
  obtain ⟨hnormal, hother⟩ := heardBy_normal (.palette h p) s
  have hcpe : u.cpe = s.cpe := (heardBy_units _ s).2.2.2.2
  have hcredits : u.pal.credits = s.pal.credits := heardBy_credits _ s
  obtain ⟨q, es, hq⟩ : ∃ q es, u.pal.hearPalette h.source p = (q, es) := ⟨_, _, rfl⟩
  refine ⟨_, exec_palTakes (k := .palette h p) ht hv (congrArg some hq), rfl, fun n => ?_, fun hs => ?_, fun hs => ?_⟩
  · have hc : q.credits = lowerAll u.pal.credits := by rw [← Pal.credits_hearPalette h.source p, hq]
    show creditOf q.credits n = _
    rw [hc, hcredits, creditOf_lowerAll]
  · obtain ⟨rfl, rfl⟩ := Prod.mk.inj (hq.symm.trans (Pal.hearPalette_idle _ _ (hother hs)))
    exact ⟨rfl, hcpe⟩
  · rw [hnormal hs] at hq
    intro diverged
    have diverges : ∀ why, s.pal.judge p = some why → diverged why := fun why hj => by
      obtain ⟨rfl, rfl⟩ := Prod.mk.inj (hq.symm.trans (Pal.hearPalette_diverges h.source hs hj))
      exact ⟨rfl, congrArg (fun c : Cpe => { c with events := pushEvent c.events (divergedEvent h.source why) }) hcpe⟩
    refine ⟨?_, ?_⟩
    · rintro f rfl
      exact diverges _ rfl
    · rintro r rfl
      have hj := s.pal.judge_good r
      refine ⟨fun hrun => ?_, fun hrun he => ?_, fun hrun he hf => ?_, fun hrun he hf => ?_⟩
      · exact diverges _ (hj.trans (if_pos hrun))
      · rw [if_neg (Nat.not_lt.2 hrun)] at hj
        exact diverges _ (hj.trans (if_pos he))
      · rw [if_neg (Nat.not_lt.2 hrun), if_neg (not_not.2 he)] at hj
        exact diverges _ (hj.trans (if_pos hf))
      · rw [if_neg (Nat.not_lt.2 hrun), if_neg (not_not.2 he), if_neg (Nat.not_le.2 hf)] at hj
        obtain ⟨rfl, rfl⟩ := Prod.mk.inj (hq.symm.trans (Pal.hearPalette_appends h.source hs hj))
        exact ⟨rfl, hcpe⟩

end Sys2Proof.Machine
end

section
/-! PROOF. The packets of an awaited answer: O42. -/

namespace Sys2Proof.Machine

/-! ### The writes of a part (R120, R174) -/

theorem runWrites_cons (start : Nat) (e : Color) (es : List Color) :
    runWrites start (e :: es) = (start, e) :: runWrites (start + 1) es := by
  rw [runWrites, List.zipIdx_cons', List.map_cons, List.map_map]
  refine congrArg _ (List.map_congr_left fun x _ => ?_)
  simp only [Function.comp_apply, Prod.map_fst, Prod.map_snd, id_eq, Nat.add_assoc, Nat.add_comm 1]

/-- A run written into the bank reads back, and the rest of the bank reads as before. -/
theorem Memory.read_writeAll_run (m : Memory) (start : Nat) (es : List Color) (hr : start + es.length ≤ bankSize) (i : Nat) :
    (m.writeAll (runWrites start es)).read i =
      if start ≤ i ∧ i < start + es.length then es.getD (i - start) 0 else m.read i := by
  induction es generalizing m start with
  | nil => rw [if_neg (by simp)]; rfl
  | cons e es ih =>
    rw [List.length_cons] at hr ⊢
    rw [runWrites_cons, Memory.writeAll, if_pos (by omega), ih _ _ (by omega)]
    by_cases hi : i = start
    · subst hi
      rw [if_neg (by omega), if_pos (by omega), Nat.sub_self, Memory.read_write_self]
      rfl
    · rw [Memory.read_write_other m e (Ne.symm hi)]
      by_cases hin : start + 1 ≤ i ∧ i < start + 1 + es.length
      · rw [if_pos hin, if_pos (by omega), show i - start = i - (start + 1) + 1 by omega, List.getD_cons_succ]
      · rw [if_neg hin, if_neg (by omega)]

/-- A part heard in place: the bank whole as the part before left it, the entries to be written, and the run they are (R120, R174). -/
theorem Pal.installPart_installs (p : Pal) {k : Nat} {entries : List Color} (hl : entries.length = 64) (hk : k ≤ 7) :
    (p.installPart k entries).bank = p.bank.writeAll p.installing ∧
    (p.installPart k entries).installing = entries.zipIdx.map (fun e => (64 * k + e.2, e.1)) ∧
    ∀ i, ((p.installPart k entries).bank.writeAll (p.installPart k entries).installing).read i =
      if 64 * k ≤ i ∧ i < 64 * k + 64 then entries.getD (i - 64 * k) 0 else (p.installPart k entries).bank.read i := by
  have hw : (p.installPart k entries).installing = runWrites (64 * k) entries := by
    show runWrites (64 * k) (entries.take 64) = _
    rw [List.take_of_length_le hl.le]
  refine ⟨rfl, hw, fun i => ?_⟩
  rw [hw, Memory.read_writeAll_run _ _ _ (by rw [hl]; show 64 * k + 64 ≤ 512; omega), hl]

/-! ### Which packets are of the awaited answer, and which are its next (R120, R121) -/

/-- R120: the record that the next replay of an installation must carry. -/
def Install.Expects (i : Install) (r : UpdateRecord) : Prop :=
  i.nextPart = 8 ∧ i.replays < i.n ∧ r.serial = i.e0 - BitVec.ofNat 16 i.n + BitVec.ofNat 16 i.replays ∧
    r.start.toNat + r.entries.length ≤ 512

section Answer

variable {p : Pal} {own : Station} {h : Head} {i : Install}

theorem Pal.ofAnswer_iff : p.ofAnswer own h = true ↔
    p.outstanding = true ∧ p.candidate = some h.source ∧ h.dest = .station own ∧ h.tag = p.requestTag := by
  simp only [Pal.ofAnswer, Bool.and_eq_true, beq_iff_eq, and_assoc]

/-- With the request ended no packet is of an awaited answer. -/
theorem Pal.ofAnswer_endRequest : p.endRequest.ofAnswer own h = false := rfl

/-- A packet that breaks an answer makes no packet part of one. -/
theorem Pal.ofAnswer_breakAnswer (k : Packet) (ho : p.ofAnswer own h = false) : (p.breakAnswer own k).ofAnswer own h = false := by
  rcases p.breakAnswer_cases own k with hb | hb
  · rw [hb, ho]
  · rw [hb, Pal.ofAnswer_endRequest]

theorem Pal.breakAnswer_receiving (k : Packet) (hs : p.state = .receiving) :
    p.breakAnswer own k = if p.isNext own k then p else p.endRequest := by
  rw [Pal.breakAnswer, hs]

theorem Pal.breakAnswer_resync (k : Packet) (hs : p.state = .resync) :
    p.breakAnswer own k = if p.outOfTurn own k then p.endRequest else p := by
  rw [Pal.breakAnswer, hs]

/-- R120: the next part. -/
theorem Pal.isNext_snapshot (ho : p.ofAnswer own h = true) (hi : p.install = some i) (part : Byte) (b : SnapshotBody) :
    p.isNext own (.snapshot h part (.good b)) = true ↔ i.nextPart < 8 ∧ part.toNat = i.nextPart := by
  simp only [Pal.isNext, ho, hi, Bool.true_and, Bool.and_eq_true, decide_eq_true_eq]

theorem Pal.isNext_replay (ho : p.ofAnswer own h = true) (hi : p.install = some i) (r : UpdateRecord) :
    p.isNext own (.replay h (.good r)) = true ↔ i.Expects r := by
  simp only [Pal.isNext, Install.Expects, Install.serial, ho, hi, Bool.true_and, Bool.and_eq_true, decide_eq_true_eq, beq_iff_eq,
    and_assoc]

/-- R121: a part after part 0, heard before it. -/
theorem Pal.outOfTurn_snapshot (ho : p.ofAnswer own h = true) (part : Byte) (b : Payload SnapshotBody) :
    p.outOfTurn own (.snapshot h part b) = true ↔ 1 ≤ part.toNat ∧ part.toNat ≤ 7 := by
  simp only [Pal.outOfTurn, ho, Bool.true_and, Bool.and_eq_true, decide_eq_true_eq]

/-- R121: the next part fails nothing. -/
theorem Pal.breakAnswer_nextPart (ho : p.ofAnswer own h = true) (hs : p.state = .receiving) (hi : p.install = some i)
    {part : Byte} (b : SnapshotBody) (hn : i.nextPart = part.toNat) (h7 : part.toNat ≤ 7) :
    p.breakAnswer own (.snapshot h part (.good b)) = p :=
  (Pal.breakAnswer_receiving _ hs).trans (if_pos ((Pal.isNext_snapshot ho hi part b).2 ⟨by omega, hn.symm⟩))

/-- R121: a part whose payload failed, and any part but the next, fails the installation. -/
theorem Pal.breakAnswer_otherPart (ho : p.ofAnswer own h = true) (hs : p.state = .receiving) (hi : p.install = some i)
    {part : Byte} {b : Payload SnapshotBody} (hn : (∃ f, b = .failed f) ∨ part.toNat ≠ i.nextPart ∨ 8 ≤ i.nextPart) :
    p.breakAnswer own (.snapshot h part b) = p.endRequest := by
  refine (Pal.breakAnswer_receiving _ hs).trans (if_neg ?_)
  cases b with
  | failed f => exact Bool.false_ne_true
  | good b =>
    rw [Pal.isNext_snapshot ho hi]
    rcases hn with ⟨f, hf⟩ | hn | hn
    · cases hf
    · exact fun hc => hn hc.2
    · omega

/-- R121: part 0 in RESYNC fails nothing. -/
theorem Pal.breakAnswer_firstPart (ho : p.ofAnswer own h = true) (hs : p.state = .resync) (b : Payload SnapshotBody) :
    p.breakAnswer own (.snapshot h 0 b) = p :=
  (Pal.breakAnswer_resync _ hs).trans (if_neg (by rw [Pal.outOfTurn_snapshot ho]; decide))

/-- R121: before part 0 the parts 1 to 7 end the request. -/
theorem Pal.breakAnswer_partOutOfTurn (ho : p.ofAnswer own h = true) (hs : p.state = .resync) {part : Byte}
    (b : Payload SnapshotBody) (h1 : 1 ≤ part.toNat) (h7 : part.toNat ≤ 7) :
    p.breakAnswer own (.snapshot h part b) = p.endRequest :=
  (Pal.breakAnswer_resync _ hs).trans (if_pos ((Pal.outOfTurn_snapshot ho part b).2 ⟨h1, h7⟩))

/-- R121: the next replay fails nothing. -/
theorem Pal.breakAnswer_nextReplay (ho : p.ofAnswer own h = true) (hs : p.state = .receiving) (hi : p.install = some i)
    {r : UpdateRecord} (hr : i.Expects r) : p.breakAnswer own (.replay h (.good r)) = p :=
  (Pal.breakAnswer_receiving _ hs).trans (if_pos ((Pal.isNext_replay ho hi r).2 hr))

/-- R121: any other REPLAY packet of the answer fails the installation. -/
theorem Pal.breakAnswer_otherReplay (ho : p.ofAnswer own h = true) (hs : p.state = .receiving) (hi : p.install = some i)
    {b : Payload UpdateRecord} (hn : ∀ r, ¬ (b = .good r ∧ i.Expects r)) : p.breakAnswer own (.replay h b) = p.endRequest := by
  refine (Pal.breakAnswer_receiving _ hs).trans (if_neg ?_)
  cases b with
  | failed f => exact Bool.false_ne_true
  | good r =>
    rw [Pal.isNext_replay ho hi]
    exact fun hr => hn r ⟨rfl, hr⟩

/-- R121: before part 0 a replay ends the request. -/
theorem Pal.breakAnswer_replayOutOfTurn (ho : p.ofAnswer own h = true) (hs : p.state = .resync) (b : Payload UpdateRecord) :
    p.breakAnswer own (.replay h b) = p.endRequest :=
  (Pal.breakAnswer_resync _ hs).trans (if_pos ho)

/-! ### What the PAL does with them -/

/-- R120: a part that is not of the awaited answer is discarded. -/
theorem Pal.take_foreignPart (part : Byte) (b : Payload SnapshotBody) (ho : p.ofAnswer own h = false) :
    p.take own (.snapshot h part b) = some (p, []) := by
  cases b with
  | failed f => rfl
  | good b => exact congrArg some (if_pos (by rw [ho]; rfl))

/-- R120: and so is a replay. -/
theorem Pal.take_foreignReplay (b : Payload UpdateRecord) (ho : p.ofAnswer own h = false) :
    p.take own (.replay h b) = some (p, []) := by
  cases b with
  | failed f => rfl
  | good b => exact congrArg some (if_pos (by rw [ho]; rfl))

/-- A NORMAL station installs no part. -/
theorem Pal.take_part_normal (part : Byte) (b : Payload SnapshotBody) (hs : p.state = .normal) :
    p.take own (.snapshot h part b) = some (p, []) := by
  cases b with
  | failed f => rfl
  | good b => simp only [Pal.take, Pal.hearSnapshot, hs, ite_self]

/-- A NORMAL station installs no replay. -/
theorem Pal.take_replay_normal (b : Payload UpdateRecord) (hs : p.state = .normal) :
    p.take own (.replay h b) = some (p, []) := by
  cases b with
  | failed f => rfl
  | good b => simp only [Pal.take, Pal.hearReplay, hs, ite_self]

/-- R120: part 0, in RESYNC: the installation begins unless its replays are too many for the store. -/
theorem Pal.hearSnapshot_first {l : SnapshotLead} {entries : List Color} (ho : p.ofAnswer own h = true) (hs : p.state = .resync) :
    p.hearSnapshot own h 0 (.good { lead := some l, entries := entries }) =
      if l.n.toNat ≤ 16 then ({ p.installPart 0 entries with
        state := .receiving, install := some { s := l.s, e0 := l.e0, n := l.n.toNat, nextPart := 1, replays := 0 } }, [])
      else (p, []) := by
  simp only [Pal.hearSnapshot, ho, hs, Bool.not_true, Bool.false_eq_true, if_false, true_and]

/-- R120: a part in RECEIVING is installed after the one before it. -/
theorem Pal.hearSnapshot_next (part : Byte) (b : SnapshotBody) (ho : p.ofAnswer own h = true) (hs : p.state = .receiving)
    (hi : p.install = some i) : p.hearSnapshot own h part (.good b) =
      { p.installPart part.toNat b.entries with install := some { i with nextPart := i.nextPart + 1 } }.complete := by
  simp only [Pal.hearSnapshot, ho, hs, hi, Bool.not_true, Bool.false_eq_true, if_false]

/-- R120: a replay in RECEIVING joins the pending store. -/
theorem Pal.hearReplay_next (r : UpdateRecord) (ho : p.ofAnswer own h = true) (hs : p.state = .receiving)
    (hi : p.install = some i) : p.hearReplay own h (.good r) =
      { p.append r with install := some { i with replays := i.replays + 1 } }.complete := by
  simp only [Pal.hearReplay, ho, hs, hi, Bool.not_true, Bool.false_eq_true, if_false]

/-- R121: the last packet of the answer completes the installation. -/
theorem Pal.complete_last (hs : p.state = .receiving) (hi : p.install = some i) (h8 : i.nextPart = 8) (hn : i.replays = i.n)
    (hc : p.candidate = some h.source) : p.complete =
      ({ p with state := .normal, e := i.e0, wait := none, outstanding := false, candidate := none, install := none },
       [{ kind := .paletteResynced, station := some h.source, sequence := some i.s }]) := by
  simp only [Pal.complete, hi, ← hc]
  exact if_pos ⟨hs, h8, hn⟩

/-- R121: before the last packet the installation goes on. -/
theorem Pal.complete_early (hi : p.install = some i) (hn : ¬ (i.nextPart = 8 ∧ i.replays = i.n)) : p.complete = (p, []) := by
  simp only [Pal.complete, hi]
  exact if_neg fun hc => hn hc.2

end Answer

/-! ### The rows of the two packets at a station of the view -/

section Rows

variable {k : Packet} {s : State} {q : Pal}

/-- A packet that the PAL takes for none of its own does what hearing it does. -/
theorem exec_palTakes_discarded (ht : takesPacket k.head s = true) (hv : s.inView = true)
    (hk : (s.pal.breakAnswer s.number k).take s.number k = some (s.pal.breakAnswer s.number k, [])) :
    exec k.row s = .next (heardBy k s) := by
  rw [← heardBy_pal_inView k hv] at hk
  exact exec_palTakes ht hv hk

/-- R121: a packet that ends the request ends the installation with it, and does no more. -/
theorem exec_palTakes_broken (ht : takesPacket k.head s = true) (hv : s.inView = true) (hn : s.pal.state ≠ .normal)
    (hb : s.pal.breakAnswer s.number k = s.pal.endRequest)
    (hk : s.pal.endRequest.take s.number k = some (s.pal.endRequest, [])) :
    exec k.row s = .next { heardBy k s with pal := { s.pal with
      state := .resync, outstanding := false, wait := none, install := none
      store := if s.pal.state = .receiving then [] else s.pal.store } } := by
  have hu := (heardBy_pal_inView k hv).trans (hb.trans (Pal.endRequest_eq _ hn))
  rw [exec_palTakes_discarded ht hv (by rw [hb]; exact hk), ← hu]

section Kept

variable (ht : takesPacket k.head s = true) (hv : s.inView = true) (hb : s.pal.breakAnswer s.number k = s.pal)

include ht hv hb

/-- A packet that fails nothing is taken by the PAL as it stood. -/
theorem exec_palTakes_kept (hk : s.pal.take s.number k = some (q, [])) : exec k.row s = .next { heardBy k s with pal := q } :=
  exec_palTakes ht hv (by rw [heardBy_pal_inView k hv, hb]; exact hk)

/-- With the event that the PAL then raises. -/
theorem exec_palTakes_raising {e : EventRecord} (hk : s.pal.take s.number k = some (q, [e])) : exec k.row s = .next
    { heardBy k s with pal := q, cpe := { s.cpe with events := pushEvent s.cpe.events e } } := by
  rw [← (heardBy_units k s).2.2.2.2]
  exact exec_palTakes ht hv (by rw [heardBy_pal_inView k hv, hb]; exact hk)

/-- Where it changes nothing of the PAL, no more happens than hearing. -/
theorem exec_palTakes_ignored (hk : s.pal.take s.number k = some (s.pal, [])) :
    exec k.row s = .next (heardBy k s) ∧ (heardBy k s).pal = s.pal :=
  ⟨exec_palTakes_discarded ht hv (by rw [hb]; exact hk), (heardBy_pal_inView k hv).trans hb⟩

end Kept

end Rows

/-- Settles O42: a packet not of the awaited answer is discarded; one of it is its next packet, or ends the request. -/
theorem answerIsInstalled : Obligations.AnswerIsInstalled := by
  refine ⟨fun h s ht hn => ?_, fun h s ht hv hout hc hd htag => ?_⟩
  · cases hv : s.inView with
    | false =>
      exact ⟨fun part p => exec_palTakes_outside (k := .snapshot h part p) ht hv,
        fun p => exec_palTakes_outside (k := .replay h p) ht hv⟩
    | true =>
      have ho : s.pal.ofAnswer s.number h = false := by
        rw [← Bool.not_eq_true, Pal.ofAnswer_iff]
        rintro ⟨hout, hc, hd, htag⟩
        simp [hv, hout, hc, hd, htag] at hn
      exact ⟨fun part p => exec_palTakes_discarded (k := .snapshot h part p) ht hv
          (Pal.take_foreignPart part p (Pal.ofAnswer_breakAnswer _ ho)),
        fun p => exec_palTakes_discarded (k := .replay h p) ht hv
          (Pal.take_foreignReplay p (Pal.ofAnswer_breakAnswer _ ho))⟩
  · intro raised ended
    have ho : s.pal.ofAnswer s.number h = true := Pal.ofAnswer_iff.2 ⟨hout, hc, hd, htag⟩
    refine ⟨fun part p => ⟨fun lead entries hp hl => ⟨?_, ?_, ?_⟩, ?_, ?_, ?_, ?_⟩, fun p => ⟨fun i hs hi => ⟨?_, ?_, ?_⟩, ?_, ?_⟩⟩
    · rintro l hs rfl rfl hn
      subst hp
      exact ⟨_, exec_palTakes_kept (k := .snapshot h 0 _) ht hv (Pal.breakAnswer_firstPart ho hs _)
        (congrArg some ((Pal.hearSnapshot_first ho hs).trans (if_pos hn))), s.pal.installPart_installs hl (Nat.zero_le 7), rfl⟩
    · rintro l hs rfl rfl hn
      subst hp
      exact exec_palTakes_ignored (k := .snapshot h 0 _) ht hv (Pal.breakAnswer_firstPart ho hs _)
        (congrArg some ((Pal.hearSnapshot_first ho hs).trans (if_neg (Nat.not_le.2 hn))))
    · intro i hs hi hnext h1 h7
      subst hp
      have hb := Pal.breakAnswer_nextPart ho hs hi { lead := lead, entries := entries } hnext h7
      have hk := Pal.hearSnapshot_next part { lead := lead, entries := entries } ho hs hi
      by_cases hlast : part = 7 ∧ i.n = i.replays
      · have h8 : i.nextPart + 1 = 8 := by rw [hnext, hlast.1]; rfl
        exact ⟨_, exec_palTakes_raising (k := .snapshot h part _) ht hv hb
          (congrArg some (hk.trans (Pal.complete_last hs rfl h8 hlast.2.symm hc))),
          s.pal.installPart_installs hl h7, fun hno => absurd hlast hno, fun _ _ => rfl⟩
      · have hearly : ¬ (i.nextPart + 1 = 8 ∧ i.replays = i.n) := fun he =>
          hlast ⟨BitVec.eq_of_toNat_eq (by show part.toNat = 7; omega), he.2.symm⟩
        exact ⟨_, exec_palTakes_kept (k := .snapshot h part _) ht hv hb (congrArg some (hk.trans (Pal.complete_early rfl hearly))),
          s.pal.installPart_installs hl h7, fun _ => rfl, fun hp hn => absurd ⟨hp, hn⟩ hlast⟩
    · intro i hs hi hn
      exact exec_palTakes_broken (k := .snapshot h part p) ht hv (by simp [hs])
        (Pal.breakAnswer_otherPart ho hs hi hn) (Pal.take_foreignPart part p Pal.ofAnswer_endRequest)
    · intro hs h1 h7
      exact exec_palTakes_broken (k := .snapshot h part p) ht hv (by simp [hs])
        (Pal.breakAnswer_partOutOfTurn ho hs p h1 h7) (Pal.take_foreignPart part p Pal.ofAnswer_endRequest)
    · rintro hs rfl ⟨f, rfl⟩
      exact exec_palTakes_ignored (k := .snapshot h 0 _) ht hv (Pal.breakAnswer_firstPart ho hs _) rfl
    · intro hs
      exact exec_palTakes_ignored (k := .snapshot h part p) ht hv (breakAnswer_normal _ _ _ hs)
        (Pal.take_part_normal part p hs)
    · rintro r ⟨rfl, hr⟩ hmore
      exact exec_palTakes_kept (k := .replay h _) ht hv (Pal.breakAnswer_nextReplay ho hs hi hr)
        (congrArg some ((Pal.hearReplay_next r ho hs hi).trans (Pal.complete_early rfl fun hd => hmore.ne hd.2)))
    · rintro r ⟨rfl, hr⟩ hlast
      exact exec_palTakes_raising (k := .replay h _) ht hv (Pal.breakAnswer_nextReplay ho hs hi hr)
        (congrArg some ((Pal.hearReplay_next r ho hs hi).trans
          (Pal.complete_last (i := { i with replays := i.replays + 1 }) hs rfl hr.1 hlast hc)))
    · intro hn
      exact exec_palTakes_broken (k := .replay h p) ht hv (by simp [hs])
        (Pal.breakAnswer_otherReplay ho hs hi hn) (Pal.take_foreignReplay p Pal.ofAnswer_endRequest)
    · intro hs
      exact exec_palTakes_broken (k := .replay h p) ht hv (by simp [hs])
        (Pal.breakAnswer_replayOutOfTurn ho hs p) (Pal.take_foreignReplay p Pal.ofAnswer_endRequest)
    · intro hs
      exact exec_palTakes_ignored (k := .replay h p) ht hv (breakAnswer_normal _ _ _ hs)
        (Pal.take_replay_normal p hs)

end Sys2Proof.Machine
end

section
/-! PROOF. READ ATTRIBUTE, WRITE ATTRIBUTE and the records that the part forms: O19, O20 and O21. -/

namespace Sys2Proof.Machine

/-! ### READ ATTRIBUTE (R127) -/

/-- A run with a count of 0, with a count too large, or past the end does not fit. -/
theorem runFits_eq_false {start most size : Nat} {count : Byte} (h : count = 0 ∨ most < count.toNat ∨ size < start + count.toNat) :
    runFits start count.toNat most size = false := by
  rw [← Bool.not_eq_true, runFits_iff]
  rcases h with rfl | h | h
  · simp
  · omega
  · omega

/-- Settles O19: the run fits, or it does not. -/
theorem readAttributeReturnsTheRun : Obligations.ReadAttributeReturnsTheRun := by
  intro start count s hs
  refine ⟨fun h => ?_, fun h1 h16 h64 => ?_⟩
  · exact exec_answered hs (if_pos (by rw [runFits_eq_false h]; rfl))
  · have hf : runFits start.toNat count.toNat 16 64 = true := (runFits_iff _ _ _ _).2 ⟨h1, h16, h64⟩
    exact exec_answered hs (if_neg (by rw [hf]; decide))

/-! ### The attributes 0 to 7 (R126, section 11.6) -/

/-- A value is the field of its number at bit 0. -/
theorem field_toNat (v : Value) : field v.toNat 0 = v := by
  rw [field, Nat.pow_zero, Nat.mul_one]
  exact (BitVec.ofNat_toNat 32 v).trans v.setWidth_eq

/-- Two fields side by side are the sum of the two, the first above the second. -/
theorem field_append {n m : Nat} (x : BitVec n) (y : BitVec m) (shift : Nat) :
    field (x ++ y).toNat shift = field x.toNat (m + shift) + field y.toNat shift := by
  rw [BitVec.toNat_append, ← Nat.shiftLeft_add_eq_or_of_lt y.isLt, Nat.shiftLeft_eq]
  simp only [field, Nat.add_mul, Nat.pow_add, Nat.mul_assoc, BitVec.ofNat_add]

/-- A field of zero adds nothing. -/
theorem field_zero (shift : Nat) : field (0 : Byte).toNat shift = 0 := by
  rw [show (0 : Byte).toNat = 0 from rfl, field, Nat.zero_mul]
  rfl

/-- A count that fits a byte is the byte's number. -/
theorem byte_toNat {n : Nat} (h : n ≤ 255) : (byte n).toNat = n := Laws.toNat_ofNat_byte h

/-- R107: where the pending store agrees with the palette state, it is within its capacity. -/
theorem store_length_of_storeAgrees {s : State} (h : storeAgrees s = true) : s.pal.store.length ≤ storeCapacity := by
  obtain ⟨hnormal, hresync, hreceiving⟩ := (storeAgrees_iff s).1 h
  cases hp : s.pal.state with
  | normal => exact hnormal hp
  | resync => rw [hresync hp]; exact Nat.zero_le _
  | receiving =>
    obtain ⟨i, -, hl, hn, hi⟩ := hreceiving hp
    exact hl.le.trans (hn.trans hi)

/-- The codes of the two states reported in four bits fit there. -/
theorem Possession.code_lt (p : Possession) : p.code.toNat < 16 := by cases p <;> decide

theorem Agreement.code_lt (a : Agreement) : a.code.toNat < 16 := by cases a <;> decide

section PartValues

variable (s : State)

/-- Attribute 0: the station number and the states of the units. -/
theorem partValue_zero : partValue s 0 = BitVec.ofNat 8 s.number.val ++ s.startup.life.code ++ s.pos.state.code.setWidth 4 ++
    s.agr.agreement.code.setWidth 4 ++ paletteCode s.pal.state := by
  have hn : (BitVec.ofNat 8 s.number.val).toNat = s.number.val := byte_toNat (s.number.isLt.le.trans (by decide))
  have hp : (s.pos.state.code.setWidth 4).toNat = s.pos.state.code.toNat := Nat.mod_eq_of_lt s.pos.state.code_lt
  have ha : (s.agr.agreement.code.setWidth 4).toNat = s.agr.agreement.code.toNat :=
    Nat.mod_eq_of_lt s.agr.agreement.code_lt
  refine Eq.trans ?_ (field_toNat _)
  rw [field_append, field_append, field_append, field_append, hn, hp, ha]
  rfl

/-- Attribute 5: the highest bytes of L, R and C. -/
theorem partValue_five : partValue s 5 =
    (0 : Byte) ++ s.agr.l.extractLsb' 32 8 ++ s.agr.r.extractLsb' 32 8 ++ s.agr.c.extractLsb' 32 8 := by
  refine Eq.trans ?_ (field_toNat _)
  rw [field_append, field_append, field_append, field_zero, zero_add]
  rfl

/-- Attribute 6: E and the pending store. -/
theorem partValue_six (h : s.pal.store.length ≤ storeCapacity) :
    partValue s 6 = s.pal.e ++ (0 : Byte) ++ byte s.pal.store.length := by
  refine Eq.trans ?_ (field_toNat _)
  rw [field_append, field_append, field_zero, add_zero, byte_toNat (h.trans (by decide))]
  rfl

/-- Attribute 7: the message queues. -/
theorem partValue_seven (hi : s.msg.inbound.length ≤ inboundCapacity) (hp : s.msg.priority.length ≤ priorityCapacity)
    (hb : s.msg.bulk.length ≤ bulkCapacity) : partValue s 7 =
      (0 : Byte) ++ byte s.msg.inbound.length ++ byte s.msg.priority.length ++ byte s.msg.bulk.length := by
  refine Eq.trans ?_ (field_toNat _)
  rw [field_append, field_append, field_append, field_zero, zero_add, byte_toNat (hi.trans (by decide)),
    byte_toNat (hp.trans (by decide)), byte_toNat (hb.trans (by decide))]
  rfl

/-- The lowest 32 bits of a sequence. -/
theorem extractLsb'_zero_eq_setWidth (x : Seq) : x.extractLsb' 0 32 = x.setWidth 32 := by
  apply BitVec.eq_of_toNat_eq
  simp

/-- R126: a record below 8 is formed when it is read. -/
theorem readAttr_part {i : Nat} (hi : i < 8) : readAttr s i = { value := partValue s i, writer := .part } := if_pos hi

end PartValues

/-- Settles O20: each value by its own lemma; the capacities bound the counts of the last two. -/
theorem partAttributesAreFormedWhenRead : Obligations.PartAttributesAreFormedWhenRead := by
  intro s hc hs
  have hstore := store_length_of_storeAgrees hs
  obtain ⟨-, -, -, -, hprio, hbulk, hin, -⟩ := (withinCapacity_iff s).1 hc
  have value : ∀ {i : Nat}, i < 8 → (readAttr s i).value = partValue s i := fun hi => by rw [readAttr_part s hi]
  refine ⟨fun i hi => by rw [readAttr_part s hi], ?_, ?_, ?_, ?_, ?_, ?_, ?_, ?_⟩
  · exact (value (by decide)).trans (partValue_zero s)
  · exact value (by decide)
  · exact (value (by decide)).trans (extractLsb'_zero_eq_setWidth _)
  · exact (value (by decide)).trans (extractLsb'_zero_eq_setWidth _)
  · exact (value (by decide)).trans (extractLsb'_zero_eq_setWidth _)
  · exact (value (by decide)).trans (partValue_five s)
  · exact (value (by decide)).trans (partValue_six s hstore)
  · exact (value (by decide)).trans (partValue_seven s hin hprio hbulk)

/-! ### WRITE ATTRIBUTE (R128) -/

/-- R128: in range, the record takes the value and the writer LOCAL. -/
theorem writeAttributeCommand_taken {index : Byte} {value : Value} {s : State} (hu : s.startup.life ≠ .unconfigured)
    (hlo : 8 ≤ index.toNat) (hhi : index.toNat ≤ 63) : writeAttributeCommand index value s =
      (s.onAtt (fun a => a.write index.toNat ⟨value, .localPort⟩), .done []) := by
  rw [writeAttributeCommand, if_neg hu, if_neg (by omega)]

/-- Settles O21: the tests of the command; the records 0 to 7 are formed from units that a write leaves, the others by the table. -/
theorem writeAttributeWritesOneRecord : Obligations.WriteAttributeWritesOneRecord := by
  intro index value s hs
  refine ⟨fun hu => exec_answered hs (if_pos hu), fun hu => ⟨fun hr => ?_, fun hlo hhi => ?_⟩⟩
  · exact exec_answered hs ((if_neg hu).trans (if_pos hr))
  · refine ⟨_, exec_answered hs (writeAttributeCommand_taken hu hlo hhi), ?_⟩
    obtain ⟨hself, hother⟩ := readAttr_written (s := s) (r := ⟨value, .localPort⟩)
      (t := answered (.done []) (s.onAtt (fun a => a.write index.toNat ⟨value, .localPort⟩))) hlo rfl
    refine ⟨hself, fun i hi => ?_, rfl⟩
    by_cases h8 : i < 8
    · rw [readAttr_part _ h8, readAttr_part _ h8]
      rfl
    · exact hother i (by omega) hi

end Sys2Proof.Machine
end

section
/-! PROOF. The requests of this station: O22, O23 and O45. -/

namespace Sys2Proof.Machine

/-! ### The entry of a tag (R130) -/

theorem Att.find_eq_none {a : Att} {tag : Byte} : a.find tag = none ↔ ∀ r ∈ a.requests, r.tag ≠ tag := by
  simp [Att.find]

theorem Att.tag_of_find {a : Att} {tag : Byte} {r : Request} (h : a.find tag = some r) : r.tag = tag := by
  simpa using List.find?_some h

/-- The five tags from the counter upward are different. -/
theorem tagsFrom_nodup (c : Byte) : ((List.range 5).map (fun i => c + byte i)).Nodup := by
  refine List.nodup_range.map_on fun i hi j hj he => ?_
  rw [List.mem_range] at hi hj
  have hb : byte i = byte j := add_left_cancel he
  have hn := congrArg BitVec.toNat hb
  simp only [byte, BitVec.toNat_ofNat] at hn
  omega

/-- With fewer than five entries one of the five tags from the counter upward is free. -/
theorem Att.exists_freeTag {a : Att} (h : a.requests.length < 5) : ∃ i < 5, a.find (a.tagCounter + byte i) = none := by
  by_contra hno
  push Not at hno
  have hsub : (List.range 5).map (fun i => a.tagCounter + byte i) ⊆ a.requests.map Request.tag := by
    intro t ht
    obtain ⟨i, hi, rfl⟩ := List.mem_map.1 ht
    obtain ⟨r, hr⟩ := Option.ne_none_iff_exists'.1 (hno i (List.mem_range.1 hi))
    exact List.mem_map.2 ⟨r, List.mem_of_find?_eq_some hr, Att.tag_of_find hr⟩
  have hle := ((tagsFrom_nodup a.tagCounter).subperm hsub).length_le
  simp only [List.length_map, List.length_range] at hle
  omega

/-- R130: whether the tag that many steps above the counter is free. -/
def Att.freeAt (a : Att) (i : Nat) : Bool := (a.find (a.tagCounter + byte i)).isNone

theorem Att.freeTag_eq (a : Att) :
    a.freeTag = (((List.range 5).find? a.freeAt).map (fun i => a.tagCounter + byte i)).getD a.tagCounter := by
  rw [Att.freeTag, List.find?_map]
  rfl

/-- R130: with room in the table the tag of a new entry is the first from the counter upward that no entry holds. -/
theorem Att.freeTag_spec {a : Att} (h : a.requests.length < 4) : ∃ k, a.freeTag = a.tagCounter + byte k ∧ k ≤ 4 ∧
    (∀ r ∈ a.requests, r.tag ≠ a.freeTag) ∧ ∀ j, j < k → ∃ r ∈ a.requests, r.tag = a.tagCounter + byte j := by
  obtain ⟨i, hi, hf⟩ := Att.exists_freeTag (a := a) (h.trans (by decide))
  have hex : ((List.range 5).find? a.freeAt).isSome := List.find?_isSome.2 ⟨i, List.mem_range.2 hi, Option.isNone_iff_eq_none.2 hf⟩
  obtain ⟨k, hk⟩ := Option.isSome_iff_exists.1 hex
  have htag : a.freeTag = a.tagCounter + byte k := by rw [Att.freeTag_eq, hk]; rfl
  obtain ⟨hfree, hlt, hheld⟩ := List.find?_range_eq_some.1 hk
  refine ⟨k, htag, Nat.le_of_lt_succ (List.mem_range.1 hlt), ?_, fun j hj => ?_⟩
  · rw [htag]
    exact Att.find_eq_none.1 (Option.isNone_iff_eq_none.1 hfree)
  · have hj : (a.find (a.tagCounter + byte j)).isSome := by simpa [Att.freeAt] using hheld j hj
    obtain ⟨r, hr⟩ := Option.isSome_iff_exists.1 hj
    exact ⟨r, List.mem_of_find?_eq_some hr, Att.tag_of_find hr⟩

/-! ### REMOTE READ and REMOTE WRITE (R130) -/

/-- The station of a byte that names one. -/
theorem stationOf_of_val_eq {b : Byte} {n : Station} (h : n.val = b.toNat) : stationOf b = some n := by
  have hb : b.toNat < 32 := h ▸ n.isLt
  rw [stationOf, dif_pos hb]
  exact congrArg some (Fin.ext h.symm)

/-- A byte above 31 names no station. -/
theorem stationOf_of_lt {b : Byte} (h : 31 < b.toNat) : stationOf b = none := dif_neg (by omega)

section Remote

variable {target : Byte} {n : Station} {s : State} (inRange : Bool) (k : RequestKind)

/-- R130: a target that is no other station of the view. -/
theorem remoteCommand_notMember (hl : s.startup.life = .member) (ht : ∀ n, stationOf target = some n →
    inSet n s.mem.view = false ∨ n = s.number) : remoteCommand target inRange k s = (s, .refused .notMember) := by
  rw [remoteCommand, if_neg (not_not.2 hl)]
  split
  · rfl
  · next n hn =>
    refine if_pos ?_
    simpa using ht n hn

/-- R130: the tests that follow for another station of the view. -/
theorem remoteCommand_member (hl : s.startup.life = .member) (ht : stationOf target = some n) (hv : inSet n s.mem.view = true)
    (hn : n ≠ s.number) : remoteCommand target inRange k s =
      if inRange = false then (s, .refused .range)
      else if 4 ≤ s.att.requests.length then (s, .refused .full)
      else (s.onAtt (fun a => a.enqueue n k), .queued s.att.freeTag) := by
  rw [remoteCommand, if_neg (not_not.2 hl), ht]
  simp only [hv, beq_eq_false_iff_ne.2 hn, Bool.not_true, Bool.or_self, Bool.false_eq_true, if_false, Bool.not_eq_true']
  rfl

end Remote

/-- Settles O22: both rows are `remoteCommand`, whose tests come one after the other. -/
theorem remoteCommandsMakeAnEntry : Obligations.RemoteCommandsMakeAnEntry := by
  intro target c kind inRange s hs hc
  obtain ⟨fits, hx, hfits⟩ : ∃ fits : Bool, exec c s = .next (takeCommand (remoteCommand target fits kind) s) ∧
      (inRange ↔ fits = true) := by
    rcases hc with ⟨start, count, rfl, rfl, hr⟩ | ⟨index, value, rfl, rfl, hr⟩
    · exact ⟨_, rfl, hr.trans (runFits_iff _ _ _ _).symm⟩
    · exact ⟨_, rfl, hr.trans decide_eq_true_iff.symm⟩
  have answers : ∀ {t r}, remoteCommand target fits kind s = (t, r) → exec c s = .next (answered r t) :=
    fun h => hx.trans (exec_answered hs h)
  refine ⟨fun hl => answers (if_pos hl), fun hl => ⟨fun h31 => ?_, fun n hn => ⟨fun hno => ?_, fun hv hown => ?_⟩⟩⟩
  · exact answers (remoteCommand_notMember fits kind hl fun m hm => by rw [stationOf_of_lt h31] at hm; cases hm)
  · refine answers (remoteCommand_notMember fits kind hl fun m hm => ?_)
    rw [stationOf_of_val_eq hn] at hm
    cases hm
    exact hno
  · have hcmd := remoteCommand_member fits kind hl (stationOf_of_val_eq hn) hv hown
    refine ⟨fun hr => ?_, fun hr hfull => ?_, fun hr hroom => ?_⟩
    · exact answers (hcmd.trans (if_pos (by rwa [hfits, Bool.not_eq_true] at hr)))
    · exact answers (hcmd.trans ((if_neg (by rw [hfits.1 hr]; decide)).trans (if_pos hfull)))
    · obtain ⟨k, htag, hk, hfree, hheld⟩ := Att.freeTag_spec hroom
      exact ⟨s.att.freeTag, k, htag, hk, hfree, hheld,
        answers (hcmd.trans ((if_neg (by rw [hfits.1 hr]; decide)).trans (if_neg (Nat.not_le.2 hroom))))⟩

/-! ### TAKE RESULT (R134, R178) -/

/-- An entry that has not finished is QUEUED or waits for its return. -/
theorem Request.unfinished_iff (r : Request) : r.unfinished = true ↔ r.state = .queued ∨ ∃ n, r.state = .awaitingReturn n := by
  unfold Request.unfinished
  split <;> simp [*]

/-- R134: a finished entry is returned and leaves the table. -/
theorem takeResultCommand_finished {tag : Byte} {s : State} {r : Request} (hf : s.att.find tag = some r)
    (hu : r.unfinished = false) : takeResultCommand tag s =
    ({ s with att := { s.att with requests := s.att.requests.filter (fun q => q.tag ≠ tag) }, free := s.free + 1 },
      .done (r.resultBytes s.free)) := by
  simp only [takeResultCommand, hf, hu]
  rfl

/-- R178: the bytes of an entry up to its outcome. -/
theorem Request.resultBytes_eq (r : Request) (free : Nat) {tail : List Byte}
    (h : (∃ vs, r.state = .done vs ∧ tail = [2, flagByte r.corrected] ++ vs.flatMap bytesOfValue) ∨
      (∃ why, r.state = .failed why ∧ tail = [3, flagByte r.corrected, why.code])) :
    r.resultBytes free = (match r.kind with
      | .read start k => [0, byte r.target.val, start, k]
      | .write index _ => [1, byte r.target.val, index, Config.writeCount free]) ++ [byte r.attempts] ++ tail := by
  obtain ⟨tag, kind, target, attempts, state, corrected⟩ := r
  rcases h with ⟨vs, rfl, rfl⟩ | ⟨why, rfl, rfl⟩
  · rfl
  · rfl

/-- Settles O23: no entry, one unfinished, or one finished, whose state its last bytes report. -/
theorem takeResultReturnsAFinishedEntry : Obligations.TakeResultReturnsAFinishedEntry := by
  intro tag s hs
  refine ⟨fun hno => ?_, fun r hr => ⟨fun hu => ?_, fun tail ht => ?_⟩⟩
  · exact exec_answered hs (by rw [takeResultCommand, Att.find_eq_none.2 hno])
  · refine exec_answered hs ?_
    rw [takeResultCommand, hr]
    exact if_pos (r.unfinished_iff.2 hu)
  · have hu : r.unfinished = false := by
      rcases ht with ⟨vs, hst, -⟩ | ⟨why, hst, -⟩
      · rw [Request.unfinished, hst]
      · rw [Request.unfinished, hst]
    have hx := exec_answered hs (takeResultCommand_finished hr hu)
    rw [r.resultBytes_eq s.free ht] at hx
    exact ⟨Config.writeCount s.free, s.free + 1, hx⟩

/-! ### A READ RETURN packet and the request timeout (R132) -/

theorem Request.awaits_iff (r : Request) : r.awaits = true ↔ ∃ n, r.state = .awaitingReturn n := by
  unfold Request.awaits
  split
  · next n h => simp [h]
  · next h => simpa using h

section Ends

variable {a : Att} {tag : Byte} {r : Request} {n : Nat} {h : Head} {start count : Byte} {p : Payload (List Value)}

/-- R132: a return that no entry waits for from its source is discarded. -/
theorem Att.hearReturn_discarded (hno : ∀ r n, a.find h.tag = some r → r.state = .awaitingReturn n → r.target ≠ h.source) :
    a.hearReturn h start count p = (a, []) := by
  unfold Att.hearReturn
  split
  · rfl
  · next r hr =>
    refine if_neg fun hw => ?_
    rw [Bool.and_eq_true, r.awaits_iff, beq_iff_eq] at hw
    obtain ⟨⟨n, hn⟩, hsrc⟩ := hw
    exact hno r n hr hn hsrc

/-- R132: a return that an entry waits for ends it. -/
theorem Att.hearReturn_awaited (hf : a.find h.tag = some r) (hn : r.state = .awaitingReturn n) (hsrc : r.target = h.source) :
    a.hearReturn h start count p = (a.update h.tag (fun _ => (r.return start count p).1), (r.return start count p).2) := by
  have hw : r.awaits = true := r.awaits_iff.2 ⟨n, hn⟩
  simp only [Att.hearReturn, hf, hw, hsrc, beq_self_eq_true, Bool.and_self, if_true]

/-- R132: the timeout of a tag that no entry waits under changes nothing (log 2). -/
theorem Att.timeout_idle (hno : ∀ r n, a.find tag = some r → r.state ≠ .awaitingReturn n) : a.timeout tag = (a, []) := by
  unfold Att.timeout
  split
  · rfl
  · next r hr =>
    refine if_neg fun hw => ?_
    obtain ⟨n, hn⟩ := r.awaits_iff.1 hw
    exact hno r n hr hn

/-- R132: the timeout ends an entry that waits. -/
theorem Att.timeout_awaited (hf : a.find tag = some r) (hn : r.state = .awaitingReturn n) : a.timeout tag =
    (a.update tag (fun q => { q with state := .failed .timeout }), [r.failedEvent .timeout]) := by
  have hw : r.awaits = true := r.awaits_iff.2 ⟨n, hn⟩
  simp only [Att.timeout, hf, hw, if_true]

end Ends

/-- R132: a READ RETURN packet addressed to this station in the view; the entries it leaves, and the events raised. -/
theorem onReadReturn_eq {h : Head} {start count : Byte} {p : Payload (List Value)} {s : State} {a : Att} {es : List EventRecord}
    (hm : (addressed h s && s.inView) = true) (ha : s.att.hearReturn h start count p = (a, es)) : onReadReturn h start count p s =
      { s with att := a, cpe := { s.cpe with events := es.foldl pushEvent s.cpe.events } } := by
  rw [onReadReturn, if_pos hm, ha]
  exact State.raiseAll_eq _ es

/-- R132: the row of the timeout outside a reset. -/
theorem exec_requestTimeout {tag : Byte} {s : State} {a : Att} {es : List EventRecord} (hr : s.inReset = false)
    (ha : s.att.timeout tag = (a, es)) : exec (.requestTimeout tag) s =
      .next { s with att := a, cpe := { s.cpe with events := es.foldl pushEvent s.cpe.events } } := by
  refine congrArg Host.Outcome.next ((if_neg (by rw [hr]; decide)).trans ?_)
  rw [ha]
  exact State.raiseAll_eq _ es

/-- Settles O45: `onReadReturn` over `heardBy`, and the timeout, each by the entry that holds the tag. -/
theorem returnOrTimeoutEndsARead : Obligations.ReturnOrTimeoutEndsARead := by
  intro s entered raised
  refine ⟨fun h start count p ht => ?_, fun tag hr => ⟨fun hno => ?_, fun r n hf hn => ?_⟩⟩
  · intro u ask failed
    have hask : ask = .next (onReadReturn h start count p u) :=
      congrArg Host.Outcome.next (hear_taken (.readReturn h start count p) _ s ht)
    have hto : (addressed h u && u.inView) = true ↔ h.dest = .station s.number ∧ s.inView = true := by
      rw [addressed, (heardBy_keeps _ s).1, (heardBy_units _ s).1, Bool.and_eq_true, beq_iff_eq]
    have hatt : u.att = s.att := by rw [show u = _ from heardBy_eq _ s]
    have hcpe : u.cpe = s.cpe := by rw [show u = _ from heardBy_eq _ s]
    have mine : h.dest = .station s.number → s.inView = true → ∀ a es, s.att.hearReturn h start count p = (a, es) →
        ask = .next { u with att := a, cpe := { s.cpe with events := es.foldl pushEvent s.cpe.events } } := by
      intro hd hv a es ha
      rw [hask, onReadReturn_eq (hto.2 ⟨hd, hv⟩) (hatt ▸ ha), hcpe]
    refine ⟨fun hm => ?_, fun hd hv => ⟨fun hno => ?_, fun r n hf hn hsrc => ?_⟩⟩
    · rw [hask, onReadReturn, if_neg (hm ∘ hto.1)]
    · rw [mine hd hv _ _ (Att.hearReturn_discarded hno), ← hatt, ← hcpe]
      rfl
    · have ended : ∀ q e, r.return start count p = (q, [e]) →
          ask = .next { u with att := entered h.tag q, cpe := raised e } := by
        intro q e hq
        exact mine hd hv _ _ ((Att.hearReturn_awaited hf hn hsrc).trans (by rw [hq]))
      have htag := Att.tag_of_find hf
      have hcheck : r.failedEvent .check =
          { kind := .requestFailed, station := some r.target, tag := some h.tag, reason := some .check } := by
        rw [Request.failedEvent, htag]
      have hdone : r.doneEvent = { kind := .requestDone, station := some r.target, tag := some h.tag } := by
        rw [Request.doneEvent, htag]
      refine ⟨?_, ?_, ?_⟩
      · rintro vs rfl hk
        exact hdone ▸ ended _ _ (if_pos hk)
      · rintro vs rfl hk
        exact ended _ _ ((if_neg hk).trans (by rw [hcheck]))
      · rintro f rfl
        exact ended _ _ (by rw [Request.return, hcheck])
  · exact exec_requestTimeout hr (Att.timeout_idle hno)
  · rw [exec_requestTimeout hr (Att.timeout_awaited hf hn), Request.failedEvent, Att.tag_of_find hf]
    rfl

end Sys2Proof.Machine
end

section
/-! PROOF. SEND MESSAGE and TAKE MESSAGE: O18. -/

namespace Sys2Proof.Machine

/-! ### The arguments of SEND MESSAGE (R141, R178) -/

/-- The station of a destination byte that names one; 3Fh is no station number. -/
theorem destOfByte_of_val_eq {b : Byte} {n : Station} (h : n.val = b.toNat) : destOfByte b = some (.station n) := by
  have hb : b.toNat < 32 := h ▸ n.isLt
  have hall : b ≠ 0x3F := by
    rintro rfl
    exact absurd hb (by decide)
  rw [destOfByte, if_neg hall, dif_pos hb]
  exact congrArg (fun m => some (Dest.station m)) (Fin.ext h.symm)

/-- Every other byte but 3Fh names no destination. -/
theorem destOfByte_of_unknown {b : Byte} (h : ¬ (b = 0x3F ∨ b.toNat < 32)) : destOfByte b = none := by
  obtain ⟨hall, h32⟩ := not_or.1 h
  rw [destOfByte, if_neg hall, dif_neg h32]

theorem messageClassOf_eq_priority {cls : Byte} : messageClassOf cls = some .priority ↔ cls = 0 := by
  simp [messageClassOf]

theorem messageClassOf_eq_bulk {cls : Byte} : messageClassOf cls = some .bulk ↔ cls = 1 := by
  by_cases h0 : cls = 0
  · subst h0
    decide
  · rw [messageClassOf, if_neg h0]
    simp

/-- The class byte and the size of the payload together: a class that admits the payload. -/
theorem exists_class_payloadFits {cls : Byte} {payload : List Byte} :
    (∃ c, messageClassOf cls = some c ∧ payloadFits c payload = true) ↔
      1 ≤ payload.length ∧ (cls = 0 ∧ payload.length ≤ 16 ∨ cls = 1 ∧ payload.length ≤ 128) := by
  simp only [payloadFits, Bool.and_eq_true, decide_eq_true_eq]
  constructor
  · rintro ⟨c, hc, h1, hle⟩
    cases c with
    | priority => exact ⟨h1, .inl ⟨messageClassOf_eq_priority.1 hc, hle⟩⟩
    | bulk => exact ⟨h1, .inr ⟨messageClassOf_eq_bulk.1 hc, hle⟩⟩
  · rintro ⟨h1, ⟨hc, hle⟩ | ⟨hc, hle⟩⟩
    · exact ⟨.priority, messageClassOf_eq_priority.2 hc, h1, hle⟩
    · exact ⟨.bulk, messageClassOf_eq_bulk.2 hc, h1, hle⟩

theorem Msg.full_priority_iff {g : Msg} : g.full .priority = true ↔ 4 ≤ g.priority.length := decide_eq_true_iff

theorem Msg.full_bulk_iff {g : Msg} : g.full .bulk = true ↔ 8 ≤ g.bulk.length := decide_eq_true_iff

/-! ### SEND MESSAGE, test by test (R141) -/

section Send

variable {dest cls : Byte} {d : Dest} {c : MessageClass} {s : State} (stream ack : Byte) (payload : List Byte)

/-- A destination that is not another member. -/
theorem sendMessageCommand_notMember (hl : s.startup.life = .member) (hn : notMember s (destOfByte dest) = true) :
    sendMessageCommand dest stream ack cls payload s = (s, .refused .notMember) := by
  rw [sendMessageCommand, if_neg (not_not.2 hl), if_pos hn]

/-- A byte that is no destination, or one that is no class. -/
theorem sendMessageCommand_unread (hl : s.startup.life = .member) (hn : notMember s (destOfByte dest) = false)
    (h : destOfByte dest = none ∨ messageClassOf cls = none) :
    sendMessageCommand dest stream ack cls payload s = (s, .refused .range) := by
  rw [sendMessageCommand, if_neg (not_not.2 hl), hn, if_neg Bool.false_ne_true]
  rcases h with h | h
  · rw [h]
  · rw [h]
    cases destOfByte dest <;> rfl

/-- The tests that follow for a destination and a class. -/
theorem sendMessageCommand_read (hl : s.startup.life = .member) (hd : destOfByte dest = some d)
    (hn : notMember s (some d) = false) (hc : messageClassOf cls = some c) : sendMessageCommand dest stream ack cls payload s =
      if ¬ (payloadFits c payload = true ∧ stream.toNat ≤ 3) then (s, .refused .range)
      else if s.msg.full c = true then (s, .refused .full)
      else (s.onMsg (fun g => g.enqueue c d (stream.setWidth 2) (decide (ack ≠ 0)) payload), .queued s.msg.tagCounter) := by
  have ht : (!payloadFits c payload || decide (3 < stream.toNat)) = true ↔
      ¬ (payloadFits c payload = true ∧ stream.toNat ≤ 3) := by
    rw [Bool.or_eq_true, Bool.not_eq_true', decide_eq_true_iff, not_and_or, Bool.not_eq_true, Nat.not_le]
  have ha : (ack != 0) = decide (ack ≠ 0) := by rw [bne, beq_eq_decide, decide_not]
  simp only [sendMessageCommand, if_neg (not_not.2 hl), hd, hn, hc, ht, ha, Bool.false_eq_true, if_false]

end Send

/-- Settles O18: SEND MESSAGE by its tests, one after the other, and TAKE MESSAGE by the inbound queue. -/
theorem messagesAreQueuedAndTaken : Obligations.MessagesAreQueuedAndTaken := by
  refine ⟨?_, fun s hs => ⟨fun hi => ?_, fun m rest hi => ?_⟩⟩
  · intro dest stream ack cls payload s hs ask known sized record
    have answers : ∀ {t r}, sendMessageCommand dest stream ack cls payload s = (t, r) → ask = .next (answered r t) :=
      exec_answered hs
    refine ⟨fun hl => answers (if_pos hl), fun hl => ⟨fun n hn hno => ?_, fun hk => ?_, fun d hd => ?_⟩⟩
    · refine answers (sendMessageCommand_notMember _ _ _ hl ?_)
      simpa [destOfByte_of_val_eq hn, notMember] using hno
    · have hnone := destOfByte_of_unknown hk
      exact answers (sendMessageCommand_unread _ _ _ hl (by rw [hnone]; rfl) (.inl hnone))
    · obtain ⟨hdest, hmem⟩ : destOfByte dest = some d ∧ notMember s (some d) = false := by
        rcases hd with ⟨rfl, rfl⟩ | ⟨n, rfl, hn, hv, hown⟩
        · exact ⟨rfl, rfl⟩
        · exact ⟨destOfByte_of_val_eq hn, by simp [notMember, hv, hown]⟩
      have judged {c} (hc : messageClassOf cls = some c) := sendMessageCommand_read stream ack payload hl hdest hmem hc
      have fits {c} (hc : messageClassOf cls = some c) (hz : sized) : payloadFits c payload = true := by
        obtain ⟨c', hc', hf⟩ := exists_class_payloadFits.2 hz
        rwa [Option.some.inj (hc.symm.trans hc')]
      have admitted {c} (hc : messageClassOf cls = some c) (hz : sized) (h3 : stream.toNat ≤ 3) :=
        (judged hc).trans (if_neg (not_not.2 ⟨fits hc hz, h3⟩))
      refine ⟨fun hr => ?_, fun hz h3 hc hfull => ?_, fun hz h3 hc hfull => ?_,
        fun hz h3 hc hroom => ?_, fun hz h3 hc hroom => ?_⟩
      · cases hc : messageClassOf cls with
        | none => exact answers (sendMessageCommand_unread _ _ _ hl (hdest ▸ hmem) (.inr hc))
        | some c => exact answers ((judged hc).trans (if_pos fun h => hr ⟨exists_class_payloadFits.1 ⟨c, hc, h.1⟩, h.2⟩))
      · have hadm := admitted (messageClassOf_eq_priority.2 hc) hz h3
        exact answers (hadm.trans (if_pos (Msg.full_priority_iff.2 hfull)))
      · have hadm := admitted (messageClassOf_eq_bulk.2 hc) hz h3
        exact answers (hadm.trans (if_pos (Msg.full_bulk_iff.2 hfull)))
      · have hadm := admitted (messageClassOf_eq_priority.2 hc) hz h3
        exact answers (hadm.trans (if_neg (mt Msg.full_priority_iff.1 (Nat.not_le.2 hroom))))
      · have hadm := admitted (messageClassOf_eq_bulk.2 hc) hz h3
        exact answers (hadm.trans (if_neg (mt Msg.full_bulk_iff.1 (Nat.not_le.2 hroom))))
  · exact exec_answered hs (by rw [takeMessageCommand, hi])
  · exact exec_answered hs (by simp only [takeMessageCommand, hi]; rfl)

end Sys2Proof.Machine
end

section
/-! PROOF. Frames of the control port and commands, in both directions: O54. -/

namespace Sys2Proof.Machine
open Laws

/-! ### Fields and their bytes (section 11.4) -/

theorem byteAt_append_zero {w : Nat} (x : BitVec w) (b : Byte) : byteAt (x ++ b) 0 = b := by
  apply BitVec.eq_of_getLsbD_eq
  intro i hi
  simp [byteAt, BitVec.getLsbD_append, hi]

theorem byteAt_append_add {w : Nat} (x : BitVec w) (b : Byte) (i : Nat) : byteAt (x ++ b) (8 + i) = byteAt x i := by
  apply BitVec.eq_of_getLsbD_eq
  intro j hj
  simp [byteAt, BitVec.getLsbD_append, hj, Nat.add_assoc]

theorem byteAt_zero (b : Byte) : byteAt b 0 = b := by simp [byteAt]

theorem bytesOfSerial_serialOfBytes (a b : Byte) : bytesOfSerial (serialOfBytes a b) = [a, b] := by
  show [byteAt (a ++ b) (8 + 0), byteAt (a ++ b) 0] = _
  simp only [byteAt_append_add, byteAt_append_zero, byteAt_zero]

theorem bytesOfValue_valueOfBytes (a b c d : Byte) : bytesOfValue (valueOfBytes a b c d) = [a, b, c, d] := by
  show [byteAt (a ++ b ++ c ++ d) (8 + (8 + (8 + 0))), byteAt (a ++ b ++ c ++ d) (8 + (8 + 0)),
    byteAt (a ++ b ++ c ++ d) (8 + 0), byteAt (a ++ b ++ c ++ d) 0] = _
  simp only [byteAt_append_add, byteAt_append_zero, byteAt_zero]

theorem bytesOfSeq_seqOfBytes (a b c d e : Byte) : bytesOfSeq (seqOfBytes a b c d e) = [a, b, c, d, e] := by
  show [byteAt (a ++ b ++ c ++ d ++ e) (8 + (8 + (8 + (8 + 0)))), byteAt (a ++ b ++ c ++ d ++ e) (8 + (8 + (8 + 0))),
    byteAt (a ++ b ++ c ++ d ++ e) (8 + (8 + 0)), byteAt (a ++ b ++ c ++ d ++ e) (8 + 0), byteAt (a ++ b ++ c ++ d ++ e) 0] = _
  simp only [byteAt_append_add, byteAt_append_zero, byteAt_zero]

/-- Whole words are read back byte for byte. -/
theorem flatMap_wordsOfBytes (bytes : List Byte) (n : Nat) (h : bytes.length = 4 * n) :
    (wordsOfBytes bytes).flatMap bytesOfValue = bytes ∧ (wordsOfBytes bytes).length = n := by
  induction n generalizing bytes with
  | zero => rw [List.eq_nil_of_length_eq_zero h]; exact ⟨rfl, rfl⟩
  | succ n ih =>
    obtain _ | ⟨a, _ | ⟨b, _ | ⟨c, _ | ⟨d, rest⟩⟩⟩⟩ := bytes
    case cons.cons.cons.cons =>
      obtain ⟨hw, hl⟩ := ih rest (by simpa [Nat.mul_add] using h)
      simp [wordsOfBytes, bytesOfValue_valueOfBytes, hw, hl]
    all_goals simp only [List.length_cons, List.length_nil] at h; omega

/-! ### Each code and the frames it admits (R158, R159) -/

/-- The assigned command codes. -/
def commandCodes : List Byte :=
  [0x01, 0x02, 0x03, 0x04, 0x05, 0x06, 0x07, 0x08, 0x09, 0x0A, 0x0B, 0x0C, 0x0D, 0x0E, 0x0F, 0x10, 0x11, 0x12, 0x13, 0x14]

theorem toNat_of_not_mem_commandCodes : ∀ code : Byte, code ∉ commandCodes → code.toNat = 0 ∨ 21 ≤ code.toNat := by
  decide +kernel

/-- A number that is none of the codes passes every test of the match, whatever the arguments. -/
theorem decodeFrame_unassigned {code : Byte} (args : List Byte) (h : code ∉ commandCodes) : decodeFrame (code :: args) = none := by
  have hn := toNat_of_not_mem_commandCodes code h
  obtain ⟨⟨n, hlt⟩⟩ := code
  rcases hn with rfl | h21
  · rfl
  · obtain ⟨m, rfl⟩ := Nat.exists_eq_add_of_le' h21
    rfl

/-- Every complete frame with this code is the frame of the command it is judged to be. -/
def ReadsBack (code : Byte) : Prop :=
  ∀ args i, decodeFrame (code :: args) = some i → encodeFrame i = some (code :: args) ∧ i.wellFormed = true

/-- A code without arguments. -/
theorem readsBack_plain {code : Byte} {i : Instr} (hd : decodeFrame [code] = some i)
    (hlong : ∀ a rest, decodeFrame (code :: a :: rest) = none) (he : encodeFrame i = some [code]) (hw : i.wellFormed = true) :
    ReadsBack code := by
  intro args j hj
  cases args with
  | nil => cases hd.symm.trans hj; exact ⟨he, hw⟩
  | cons a rest => cases (hlong a rest).symm.trans hj

theorem readsBack_readReadiness : ReadsBack 0x04 := by
  intro args i h
  obtain _ | ⟨n, _ | ⟨_, _⟩⟩ := args <;> cases h
  exact ⟨rfl, rfl⟩

theorem readsBack_configure : ReadsBack 0x06 := by
  intro args i h
  obtain _ | ⟨p, _ | ⟨a, _ | ⟨d, _ | ⟨b, _ | ⟨o, _ | ⟨r, _ | ⟨_, _⟩⟩⟩⟩⟩⟩⟩ := args <;> cases h
  exact ⟨rfl, rfl⟩

theorem readsBack_ready : ReadsBack 0x0B := by
  intro args i h
  obtain _ | ⟨a, _ | ⟨b, _ | ⟨c, _ | ⟨d, _ | ⟨e, _ | ⟨_, _⟩⟩⟩⟩⟩⟩ := args <;> cases h
  exact ⟨by rw [encodeFrame, bytesOfSeq_seqOfBytes], rfl⟩

theorem readsBack_submitPalette : ReadsBack 0x0C := by
  intro args i h
  obtain _ | ⟨a, _ | ⟨b, _ | ⟨c, _ | ⟨d, _ | ⟨e, _ | ⟨x, _ | ⟨y, _ | ⟨n, rest⟩⟩⟩⟩⟩⟩⟩⟩ := args
  case cons.cons.cons.cons.cons.cons.cons.cons =>
    rw [decodeFrame_submitPalette] at h
    obtain ⟨hlen, h⟩ := Option.ite_none_right_eq_some.1 h
    cases h
    obtain ⟨hw, hn⟩ := flatMap_wordsOfBytes rest n.toNat hlen
    refine ⟨?_, decide_eq_true (by omega)⟩
    rw [encodeFrame, bytesOfSeq_seqOfBytes, bytesOfSerial_serialOfBytes, hw, hn, BitVec.ofNat_toNat, BitVec.setWidth_eq]
    rfl
  all_goals cases h

theorem readsBack_readPalette : ReadsBack 0x0D := by
  intro args i h
  obtain _ | ⟨x, _ | ⟨y, _ | ⟨n, _ | ⟨_, _⟩⟩⟩⟩ := args <;> cases h
  exact ⟨by rw [encodeFrame, bytesOfSerial_serialOfBytes]; rfl, rfl⟩

theorem readsBack_sendMessage : ReadsBack 0x0E := by
  intro args i h
  obtain _ | ⟨d, _ | ⟨st, _ | ⟨k, _ | ⟨c, _ | ⟨n, rest⟩⟩⟩⟩⟩ := args
  case cons.cons.cons.cons.cons =>
    rw [decodeFrame_sendMessage] at h
    obtain ⟨hlen, h⟩ := Option.ite_none_right_eq_some.1 h
    cases h
    refine ⟨?_, decide_eq_true (by omega)⟩
    rw [encodeFrame, hlen, BitVec.ofNat_toNat, BitVec.setWidth_eq]
    rfl
  all_goals cases h

theorem readsBack_readAttribute : ReadsBack 0x10 := by
  intro args i h
  obtain _ | ⟨a, _ | ⟨n, _ | ⟨_, _⟩⟩⟩ := args <;> cases h
  exact ⟨rfl, rfl⟩

theorem readsBack_writeAttribute : ReadsBack 0x11 := by
  intro args i h
  obtain _ | ⟨j, _ | ⟨a, _ | ⟨b, _ | ⟨c, _ | ⟨d, _ | ⟨_, _⟩⟩⟩⟩⟩⟩ := args <;> cases h
  exact ⟨by rw [encodeFrame, bytesOfValue_valueOfBytes], rfl⟩

theorem readsBack_remoteRead : ReadsBack 0x12 := by
  intro args i h
  obtain _ | ⟨t, _ | ⟨a, _ | ⟨n, _ | ⟨_, _⟩⟩⟩⟩ := args <;> cases h
  exact ⟨rfl, rfl⟩

theorem readsBack_remoteWrite : ReadsBack 0x13 := by
  intro args i h
  obtain _ | ⟨t, _ | ⟨j, _ | ⟨a, _ | ⟨b, _ | ⟨c, _ | ⟨d, _ | ⟨_, _⟩⟩⟩⟩⟩⟩⟩ := args <;> cases h
  exact ⟨by rw [encodeFrame, bytesOfValue_valueOfBytes], rfl⟩

theorem readsBack_takeResult : ReadsBack 0x14 := by
  intro args i h
  obtain _ | ⟨t, _ | ⟨_, _⟩⟩ := args <;> cases h
  exact ⟨rfl, rfl⟩

/-- The codes without arguments and those with, in the order of section 11.4. -/
theorem readsBack_of_mem_commandCodes : ∀ code ∈ commandCodes, ReadsBack code := by
  simp only [commandCodes, List.forall_mem_cons, List.not_mem_nil, false_imp_iff, implies_true, and_true]
  exact ⟨readsBack_plain rfl (fun _ _ => rfl) rfl rfl, readsBack_plain rfl (fun _ _ => rfl) rfl rfl,
    readsBack_plain rfl (fun _ _ => rfl) rfl rfl, readsBack_readReadiness, readsBack_plain rfl (fun _ _ => rfl) rfl rfl,
    readsBack_configure, readsBack_plain rfl (fun _ _ => rfl) rfl rfl, readsBack_plain rfl (fun _ _ => rfl) rfl rfl,
    readsBack_plain rfl (fun _ _ => rfl) rfl rfl, readsBack_plain rfl (fun _ _ => rfl) rfl rfl, readsBack_ready,
    readsBack_submitPalette, readsBack_readPalette, readsBack_sendMessage, readsBack_plain rfl (fun _ _ => rfl) rfl rfl,
    readsBack_readAttribute, readsBack_writeAttribute, readsBack_remoteRead, readsBack_remoteWrite, readsBack_takeResult⟩

theorem encodeFrame_of_decodeFrame {bytes : List Byte} {i : Instr} (h : decodeFrame bytes = some i) :
    encodeFrame i = some bytes ∧ i.wellFormed = true := by
  cases bytes with
  | nil => cases h
  | cons code args =>
    by_cases hc : code ∈ commandCodes
    · exact readsBack_of_mem_commandCodes code hc args i h
    · cases (decodeFrame_unassigned args hc).symm.trans h

/-- The frame of every well-formed command is judged to be it; the rows that are no command of the control port have no frame. -/
theorem decodeFrame_of_encodeFrame (i : Instr) : Frame.Statement i := by
  cases i with
  | noOperation => exact Frame.noOperation
  | readState => exact Frame.readState
  | readView => exact Frame.readView
  | readReadiness n => exact Frame.readReadiness n
  | takeEvent => exact Frame.takeEvent
  | configure p a d b o r => exact Frame.configure p a d b o r
  | go => exact Frame.go
  | leave => exact Frame.leave
  | restart => exact Frame.restart
  | acknowledgeFault => exact Frame.acknowledgeFault
  | ready n => exact Frame.ready n
  | submitPalette e start ws => exact Frame.submitPalette e start ws
  | readPalette start n => exact Frame.readPalette start n
  | sendMessage d st k c payload => exact Frame.sendMessage d st k c payload
  | takeMessage => exact Frame.takeMessage
  | readAttribute start n => exact Frame.readAttribute start n
  | writeAttribute j v => exact Frame.writeAttribute j v
  | remoteRead t start n => exact Frame.remoteRead t start n
  | remoteWrite t j v => exact Frame.remoteWrite t j v
  | takeResult t => exact Frame.takeResult t
  | _ => intro _ _ h; cases h

/-! ### The judgement of the bits received (R158) -/

theorem judgeBits_of_frame {bits : List Bool} {bytes : List Byte} {i : Instr} (hb : bytesOfBits bits = some bytes)
    (hd : decodeFrame bytes = some i) : judgeBits bits = .command i := by
  cases bits with
  | nil => cases hb; cases hd
  | cons b bs => simp only [judgeBits, hb, hd]

theorem judgeBits_of_no_frame {bits : List Bool} (hne : bits ≠ [])
    (h : ∀ bytes, bytesOfBits bits = some bytes → decodeFrame bytes = none) : judgeBits bits = .malformed := by
  cases bits with
  | nil => exact absurd rfl hne
  | cons b bs =>
    cases hb : bytesOfBits (b :: bs) with
    | none => simp only [judgeBits, hb]
    | some bytes => simp only [judgeBits, hb, h bytes hb]

/-- Settles O54: a frame's bits give its bytes back, and each code gives its command back and is given back by it. -/
theorem framesAndCommandsAgree : Obligations.FramesAndCommandsAgree := by
  refine ⟨fun i bytes hw he => ?_, fun bytes i => encodeFrame_of_decodeFrame⟩
  have hj : judgeBits (bitsOfBytes bytes) = .command i :=
    judgeBits_of_frame (bytesOfBits_bitsOfBytes bytes) (decodeFrame_of_encodeFrame i hw bytes he)
  exact ⟨hj, by rw [portRow, hj]⟩

end Sys2Proof.Machine
end

section
/-! PROOF. Transactions of the control port, its own five commands and the event queue: O6, O7, O8, O9 and O10. -/

namespace Sys2Proof.Machine

/-! ### The rise of CSN on no command (R158) -/

theorem bytesOfBits_length {bits : List Bool} {bytes : List Byte} (h : bytesOfBits bits = some bytes) : bits.length % 8 = 0 := by
  induction bits using bytesOfBits.induct generalizing bytes with
  | case1 => rfl
  | case2 a b c d e f g k rest ih =>
    obtain ⟨bs, hbs, -⟩ := Option.map_eq_some_iff.1 h
    have hrest := ih hbs
    simp only [List.length_cons]
    omega
  | case3 => simp_all [bytesOfBits]

theorem execRefusedFormat_malformed {bits : List Bool} (h : judgeBits bits = .malformed) (s : State) :
    exec (.refusedFormat bits) s = .next (closeFrame (some (.refused .format)) s) := by
  show execRefusedFormat bits s = _
  rw [execRefusedFormat, h]

theorem execRefusedFormat_nil (s : State) : exec (.refusedFormat []) s = .next (closeFrame none s) := rfl

/-- Bits of a length that is no multiple of 8, or of bytes that are no frame, form no frame. -/
theorem no_frame_of_malformed {bits : List Bool}
    (h : bits.length % 8 ≠ 0 ∨ ∀ bytes, bytesOfBits bits = some bytes → decodeFrame bytes = none) :
    ∀ bytes, bytesOfBits bits = some bytes → decodeFrame bytes = none := by
  rcases h with h | h
  · exact fun bytes hb => absurd (bytesOfBits_length hb) h
  · exact h

/-- Settles O7: the rise of CSN by the judgement of its bits, and by whether anything is judged. -/
theorem malformedFrameIsRefused : Obligations.MalformedFrameIsRefused := by
  refine fun bits s hs => ⟨fun hne hbad => ?_, ?_, fun bytes i hb hd => ?_, fun t ht hbad => ?_⟩
  · rw [execRefusedFormat_malformed (judgeBits_of_no_frame hne (no_frame_of_malformed hbad)), closeFrame_taken _ s hs]
    rfl
  · rintro rfl
    rw [execRefusedFormat_nil, closeFrame_taken _ s hs]
    rfl
  · show execRefusedFormat bits s = _
    rw [execRefusedFormat, judgeBits_of_frame hb hd]
  · by_cases hne : bits = []
    · rw [hne, execRefusedFormat_nil, closeFrame_untaken _ t ht]
      rfl
    · rw [execRefusedFormat_malformed (judgeBits_of_no_frame hne hbad), closeFrame_untaken _ t ht]
      rfl

/-- Settles O8: NO OPERATION answers DONE, and no bits leave no response. -/
theorem noOperationChangesNothing : Obligations.NoOperationChangesNothing := by
  refine fun s hs => ⟨exec_answered (f := fun t => (t, .done [])) hs rfl, ?_⟩
  rw [execRefusedFormat_nil, closeFrame_taken _ s hs]
  rfl

/-! ### A transaction (R156, R157) -/

theorem openPort_of_not_driven {s : State} (h : sdoDriven s = false) :
    openPort s.cpe = { s.cpe with port := .opened (outStream s.cpe.held) [], held := none } ∧ sdo s = none := by
  unfold sdoDriven at h
  unfold openPort sdo
  cases hp : s.cpe.port with
  | opened out received => simp [hp] at h
  | closed => exact ⟨rfl, rfl⟩
  | abandoned => exact ⟨rfl, rfl⟩

theorem execTransactionOpen_eq {s : State} (hr : s.inReset = false) :
    exec .transactionOpen s = .next (s.onCpe openPort) := by
  show execTransactionOpen s = _
  simp only [execTransactionOpen, hr, Bool.false_eq_true, if_false]

/-- The length byte of a response that fits it. -/
theorem outStream_some (r : Response) (h : r.bytes.length ≤ 255) :
    ∃ n : Byte, n.toNat = r.bytes.length ∧ outStream (some r) = n :: r.bytes :=
  ⟨byte r.bytes.length, Laws.toNat_ofNat_byte h, rfl⟩

/-- Settles O6: `openPort` of a port that drives nothing, and the stream bit that the bits clocked so far select. -/
theorem transactionOpenMovesTheHeldResponse : Obligations.TransactionOpenMovesTheHeldResponse := by
  refine ⟨fun s hr hd => ?_, rfl, outStream_some, fun s out sdi => ?_⟩
  · obtain ⟨hopen, hsdo⟩ := openPort_of_not_driven hd
    exact ⟨hsdo, _, (execTransactionOpen_eq hr).trans (by rw [State.onCpe, hopen]), rfl, rfl⟩
  · rw [clockAll_opened, List.nil_append]
    refine ⟨rfl, fun before b after j ho hj hk => ?_, fun hk => ?_⟩
    · show some (streamBit out sdi.length) = _
      rw [ho, hk, streamBit_byte before after b j hj]
    · exact congrArg some (streamBit_past out sdi.length hk)

/-! ### READ STATE, READ VIEW and READ READINESS (R163 to R165) -/

theorem execReadReadiness_of_entry {number : Byte} {s : State} {n : Station} {bytes : List Byte} (hs : canTake s = true)
    (hn : n.val = number.toNat) (hb : readinessBytes s.agr n = bytes) :
    exec (.readReadiness number) s = .next (answered (.done bytes) s) :=
  exec_answered hs (by simp only [readReadinessCommand, stationOf_of_val_eq hn, hb])

theorem inStepByte_eq (a : Agr) (n : Station) :
    inStepByte a n = if a.known then (if inSet n a.inStep then 1 else 0) else 2 := by
  unfold inStepByte
  cases a.known <;> rfl

/-- Settles O9: the parts of the record, and the readiness entry by what it holds. -/
theorem readCommandsReportTheState : Obligations.ReadCommandsReportTheState := by
  refine ⟨fun s hs => ?_, fun s hs => ?_, fun number s hs => ⟨fun h => ?_, fun n hn =>
    ⟨fun he => ?_, fun p he => ?_, fun p r he => ?_⟩⟩⟩
  · refine exec_answered hs (congrArg (fun d => (s, Response.done d)) ?_)
    simp only [stateHead, stateAgreement, statePalette, stateRest, List.append_assoc]
    cases s.startup.config <;> cases s.lif.lastError <;> rfl
  · refine exec_answered hs ?_
    cases anchor s.mem.view <;> rfl
  · exact exec_answered hs (by rw [readReadinessCommand, stationOf_of_lt h])
  · exact execReadReadiness_of_entry hs hn (by rw [readinessBytes, he]; rfl)
  · refine execReadReadiness_of_entry hs hn ?_
    rw [readinessBytes, he, ← inStepByte_eq]
    cases p <;> rfl
  · refine execReadReadiness_of_entry hs hn ?_
    rw [readinessBytes, he, ← inStepByte_eq]
    cases p <;> rfl

/-! ### The event queue (R166 to R169) -/

theorem markNewest_append (front : List EventRecord) (newest : EventRecord) :
    markNewest (front ++ [newest]) = front ++ [{ newest with lossFollows := true }] := by
  induction front with
  | nil => rfl
  | cons e front ih =>
    rw [List.cons_append, markNewest, ih, List.cons_append]
    exact List.append_ne_nil_of_right_ne_nil front (List.cons_ne_nil newest [])

/-- The presence bits of an event record as weights (section 11.5). -/
theorem presence_eq_sum : ∀ a b c d e f : Bool,
    (flagByte a ||| flagByte b <<< 1 ||| flagByte c <<< 2 ||| flagByte d <<< 3 ||| flagByte e <<< 4 ||| flagByte f <<< 7 : Byte) =
    byte ((if a = true then 1 else 0) + (if b = true then 2 else 0) + (if c = true then 4 else 0) + (if d = true then 8 else 0) +
      (if e = true then 16 else 0) + (if f = true then 128 else 0)) := by
  decide

theorem weight_isSome {α : Type} (o : Option α) [Decidable (o = none)] (k : Nat) :
    (if o.isSome = true then k else 0) = if o = none then 0 else k := by
  cases o <;> simp

/-- The fourteen bytes of an event: its kind, the presence byte as a sum, and the bytes of its fields. -/
theorem EventRecord.bytes_of_fields {e : EventRecord} {station tag why : Byte} {sequence set : List Byte}
    (hn : (e.station.map (fun n => byte n.val)).getD 0 = station) (hq : bytesOfSeq (e.sequence.getD 0) = sequence)
    (ht : e.tag.getD 0 = tag) (hw : (e.reason.map Reason.code).getD 0 = why) (hv : bytesOfValue (e.stations.getD 0) = set) :
    e.bytes = [e.kind.code,
      byte ((if e.station = none then 0 else 1) + (if e.sequence = none then 0 else 2) + (if e.tag = none then 0 else 4) +
        (if e.reason = none then 0 else 8) + (if e.stations = none then 0 else 16) + (if e.lossFollows = true then 128 else 0)),
      station] ++ sequence ++ [tag, why] ++ set := by
  rw [EventRecord.bytes, presence_eq_sum, hn, hq, ht, hw, hv]
  simp only [weight_isSome]

theorem takeEventCommand_nil {s : State} (h : s.cpe.events = []) : takeEventCommand s = (s, .refused .empty) := by
  rw [takeEventCommand, h]

theorem takeEventCommand_cons {s : State} {e : EventRecord} {rest : List EventRecord} (h : s.cpe.events = e :: rest) :
    takeEventCommand s = (s.onCpe (fun c => { c with events := rest }), .done (e.bytes ++ [byte rest.length])) := by
  simp only [takeEventCommand, h]

theorem inReset_of_canTake {s : State} (h : canTake s = true) : s.inReset = false := by
  rw [canTake, Bool.and_eq_true, Bool.not_eq_true'] at h
  exact h.1

/-- Settles O10: the queue by its room, TAKE EVENT by the oldest record, whose bytes are those of its fields. -/
theorem eventsAreQueuedAndTaken : Obligations.EventsAreQueuedAndTaken := by
  refine ⟨rfl, rfl, fun s e => ⟨fun h => ?_, fun front newest hq h => ?_⟩, fun s hs => ?_⟩
  · rw [State.raise, State.onCpe, pushEvent_room e h]
  · rw [State.raise, State.onCpe, pushEvent_full e h, hq, markNewest_append]
  · intro record
    refine ⟨fun h => exec_answered hs (takeEventCommand_nil h), fun e rest h =>
      ⟨_, exec_answered hs (takeEventCommand_cons h), ?_, ?_⟩⟩
    · have hb : e.bytes = record e := EventRecord.bytes_of_fields (by cases e.station <;> rfl) (by cases e.sequence <;> rfl)
        (by cases e.tag <;> rfl) (by cases e.reason <;> rfl) (by cases e.stations <;> rfl)
      rw [hb]
      rfl
    · show (s.inReset || rest.isEmpty) = rest.isEmpty
      rw [inReset_of_canTake hs, Bool.false_or]

end Sys2Proof.Machine
end

section
/-! PROOF. The transitions of the frame qualifier: O51. -/

namespace Sys2Proof.Machine

/-! ### The guards of the qualifier's rows (R171, log 2) -/

/-- A guard that asks only that no reset is in force, outside one. -/
theorem ite_inReset {s : State} (hr : s.inReset = false) (t : State) : (if s.inReset then s else t) = t :=
  if_neg (by rw [hr]; exact Bool.false_ne_true)

/-- A guard that asks for a phase of the qualifier too, in that phase. -/
theorem ite_inPhase {s : State} {p : Phase} (hr : s.inReset = false) (hp : s.frame.phase = p) (t : State) :
    (if !s.inReset && s.frame.phase == p then t else s) = t :=
  if_pos (by rw [hr, hp, Bool.not_false, Bool.true_and, beq_self_eq_true])

/-! ### The transitions (R171) -/

/-- WAIT LOW to WAIT EDGE. -/
theorem exec_frameLowQualified {s : State} (hr : s.inReset = false) (hp : s.frame.phase = .waitLow) :
    exec .frameLowQualified s = .next (s.onFrame fun q =>
      { q with phase := .waitEdge, level := false, stood := max q.stood Config.frameConfirm }) :=
  congrArg Host.Outcome.next (ite_inPhase hr hp _)

/-- WAIT EDGE to CONFIRMING; the level rises in every phase. -/
theorem exec_frameRisingEdge {s : State} (hr : s.inReset = false) :
    exec .frameRisingEdge s = .next (s.onFrame fun q =>
      { q.changed true with phase := if q.phase = .waitEdge then .confirming else q.phase }) :=
  congrArg Host.Outcome.next (ite_inReset hr _)

/-- CONFIRMING to WAIT LOW, by the row of the glitch. -/
theorem exec_frameGlitch {s : State} (hr : s.inReset = false) (hp : s.frame.phase = .confirming) :
    exec .frameGlitch s = .next (s.onFrame fun q => { q.changed false with phase := .waitLow }) :=
  congrArg Host.Outcome.next (ite_inPhase hr hp _)

/-- CONFIRMING to WAIT LOW, by a fall that is reported as such (log 2); the level falls in every phase. -/
theorem exec_frameFallingEdge {s : State} (hr : s.inReset = false) :
    exec .frameFallingEdge s = .next (s.onFrame fun q =>
      { q.changed false with phase := if q.phase = .confirming then .waitLow else q.phase }) :=
  congrArg Host.Outcome.next (ite_inReset hr _)

/-- The spacing window closes, whatever the phase. -/
theorem exec_spacingWindowClose {s : State} (hr : s.inReset = false) :
    exec .spacingWindowClose s = .next (s.onFrame fun q => { q with spacing := none }) :=
  congrArg Host.Outcome.next (ite_inReset hr _)

/-- Settles O51, row by row outside a reset. -/
theorem qualifierTransitions : Obligations.QualifierTransitions := fun _ hr =>
  ⟨exec_frameLowQualified hr, exec_frameRisingEdge hr, exec_frameGlitch hr, exec_frameFallingEdge hr, exec_spacingWindowClose hr⟩

end Sys2Proof.Machine
end

section
/-! PROOF. The command at the front of the queue: O1. -/

namespace Sys2Proof.Machine

/-- A step while a command waits; `idleStepIsOneClockPeriod` has the step on an empty queue. -/
theorem step_of_pending_cons {s : State} {c : Instr} {rest : List Instr} (h : s.pending = c :: rest) :
    step s = exec c { s with pending := rest } := by
  rw [step, h]

/-- Settles O1: of the queue the command is taken from, only the rest reaches `exec`. -/
theorem stepRunsTheFrontCommand : Obligations.StepRunsTheFrontCommand := fun c rest s =>
  step_of_pending_cons (s := { s with pending := c :: rest }) rfl

end Sys2Proof.Machine
end
